-- ==== Sys2Proof/Word.lean ====
section
/-! DEFINITION. The plain data of the block: words, line levels, the phases of the sequencer, the Decode
Status and the event strobes, as the spec names them (10_state.md R22, R29; 60_exceptions.md R218). -/

namespace Sys2Proof

/-- A word of the host window (20_memory.md R53). -/
abbrev Word := BitVec 32

/-- One byte of the Raw Register (10_state.md R26). -/
abbrev Byte := BitVec 8

/-- The two levels of the line (30_encoding.md R70): 0 is `low`, 1 is `high`. -/
inductive Level where
  | low
  | high
  deriving DecidableEq, Repr, Inhabited

/-- The eight values of `PH`, the sequencer's position (10_state.md R22). -/
inductive Phase where
  | idle
  | wakeLow
  | wakeHigh
  | ackLow
  | ackHigh
  | bitLow
  | bitHigh
  | sleep
  deriving DecidableEq, Repr, Inhabited

/-- The four values of `LAST` (10_state.md R29, 30_encoding.md R76); `noneYet` is the spec's `NONE`. -/
inductive Status where
  | noneYet
  | ok
  | timeout
  | checksum
  deriving DecidableEq, Repr, Inhabited

/-- The three events an attempt can end with: `ev_ok`, `ev_timeout`, `ev_checksum` (60_exceptions.md R218). -/
inductive Strobe where
  | ok
  | timeout
  | checksum
  deriving DecidableEq, Repr, Inhabited

/-- The result of one wait of the Signal Timing Primitive (30_encoding.md R75): a count or the sentinel. -/
inductive WaitResult where
  | done (r : Nat)
  | timeout
  deriving DecidableEq, Repr

end Sys2Proof
end

