-- ==== Sys2Proof/Config.lean ====
section
/-! DEFINITION. What the outside world can do to the block, and the values the spec leaves open. The open
values are constants with no body, so no proof can lean on one of them. -/

namespace Sys2Proof

/-- What the surroundings present next (00_scope.md R8): the tick with the level of the line sampled at it,
a host transaction word `h_we, h_addr[1:0], h_wdata[31:0]` (30_encoding.md R82), or a reset
(70_reset_and_hazards.md R240). Ticks and host operations are totally ordered, so one list holds them. -/
inductive Event where
  | tick (sample : Level)
  | host (word : BitVec 35)
  | reset
  deriving DecidableEq, Repr, Inhabited

/-- FREE VALUE (log entry 1): the surroundings' next event once the listed ones are used up, for the number
of free events drawn before it. The line is a free input (00_scope.md R8) and host operations may fall
between any two ticks (93_implementation_defined.md U11, U12), so nothing is known of it. -/
opaque Config.freeEvent : Nat → Event

/-- FREE VALUE (log entry 2): the level of `pin_out` in a phase that does not drive the pin, "don't care"
in 10_state.md R30. -/
opaque Config.pinOutReleased : Phase → Level

/-- OPEN parameter `PIN_ID` (00_scope.md R6): which pad is the sensor line; no rule depends on it. -/
opaque Config.pinId : Nat

/-- OPEN parameter `CLK_HZ` (00_scope.md R6): no rule depends on it, the model counts ticks. -/
opaque Config.clkHz : Nat

/-- OPEN parameter `BASE` (00_scope.md R6, 20_memory.md R53): the platform's byte address of window word 0. -/
opaque Config.base : Nat

end Sys2Proof
end

