-- ==== Sys2Proof/Machine/Operands.lean ====
section
/-! DEFINITION. The operands of the sequencer's operations: the protocol constants (00_scope.md R5), the wired
level and bound of each wait (40_timing_unit.md R100), the bytes and fields of the Raw Register
(30_encoding.md R72, R73), the threshold and the shift (42_bit_capture.md R143, R144), and the place of the
host window's words (20_memory.md R53, R54). -/

namespace Sys2Proof.Machine

/-! ## The protocol constants (R5) -/

/-- Ticks the wake-up pulse is driven low. -/
def tWakeLow : Nat := 3000
/-- Ticks the line is driven high before it is released. -/
def tWakeHigh : Nat := 25
/-- Bound of the acknowledgement low wait. -/
def tmoAckLow : Nat := 85
/-- Bound of the acknowledgement high wait. -/
def tmoAckHigh : Nat := 85
/-- Bound of each bit's low segment. -/
def tmoBitLow : Nat := 56
/-- Bound of each bit's high segment. -/
def tmoBitHigh : Nat := 75
/-- A high segment strictly longer than this is a 1. -/
def bitThresh : Nat := 40
/-- Data bits of a frame. -/
def nBits : Nat := 40
/-- Ticks of the pause between attempts. -/
def tSleep : Nat := 4000000

/-! ## The Raw Register (R9, R26, R72) -/

/-- Byte `i` of the Raw Register, `RAW[39-8*i : 32-8*i]` (R9); byte 0 was received first. -/
def rawByte (raw : BitVec 40) (i : Nat) : Byte := raw.extractLsb' (32 - 8 * i) 8

/-- The humidity field `H`, `RAW[39:24]`. -/
def humField (raw : BitVec 40) : BitVec 16 := raw.extractLsb' 24 16

/-- The temperature sign `S`, `RAW[23]`; true is negative. -/
def signField (raw : BitVec 40) : Bool := raw.getLsbD 23

/-- The temperature magnitude `M`, `RAW[22:8]`. -/
def magField (raw : BitVec 40) : BitVec 15 := raw.extractLsb' 8 15

/-- The checksum field `C`, `RAW[7:0]`. -/
def checkField (raw : BitVec 40) : Byte := raw.extractLsb' 0 8

/-- The 40-bit frame made of its four fields, humidity in the high bits (R72). -/
def frameBits (h : BitVec 16) (sgn : BitVec 1) (m : BitVec 15) (c : BitVec 8) : BitVec 40 :=
  h ++ sgn ++ m ++ c

/-! ## Bit capture (R143, R144) -/

/-- The data bit a high segment of `r` ticks stands for: the comparison is strict (R143). -/
def thresholdBit (r : Nat) : Bool := decide (bitThresh < r)

/-- `SHIFT`: the register moves up one place and the new bit enters at bit 0 (R144). -/
def shiftIn (raw : BitVec 40) (b : Bool) : BitVec 40 := raw.extractLsb' 0 39 ++ BitVec.ofBool b

/-- The Raw Register after the bits of a list, in order of arrival, are shifted into a cleared one (R144, R149). -/
def packBits (bits : List Bool) : BitVec 40 := bits.foldl shiftIn 0

/-! ## The host window (R53, R54) -/

/-- The platform's byte address of window word `idx` (R53): `BASE` and four bytes a word. -/
def windowAddress (idx : BitVec 2) : Nat := Config.base + 4 * idx.toNat

/-- Byte `k` of a window word where the platform is byte-addressed: little-endian (R54). -/
def windowLane (w : Word) (k : Nat) : Byte := w.extractLsb' (8 * k) 8

end Sys2Proof.Machine
end

