-- ==== Sys2Proof/Syntax.lean ====
section
/-! DEFINITION. The syntax: one constructor for each of the 23 rows of the opcode table (30_encoding.md R72,
R76, R77, R78, R82). The nine host transactions carry the bits their row ignores, so that a transaction word
and its instruction are the same information. -/

namespace Sys2Proof

inductive Instr where
  /-- `START_SAMPLING`: write `CTRL` with bit 0 = 1; `d` is the ignored `h_wdata[31:1]` (R190). -/
  | startSampling (d : BitVec 31)
  /-- `CTRL_NOP`: write `CTRL` with bit 0 = 0; `d` is the ignored `h_wdata[31:1]` (R196). -/
  | ctrlNop (d : BitVec 31)
  /-- `WRITE_IGNORED_W1`: write of word 1, `STATUS`; `d` is the ignored write data (R196). -/
  | writeIgnoredW1 (d : BitVec 32)
  /-- `WRITE_IGNORED_W2`: write of word 2, `HUMIDITY` (R196). -/
  | writeIgnoredW2 (d : BitVec 32)
  /-- `WRITE_IGNORED_W3`: write of word 3, `TEMPERATURE` (R196). -/
  | writeIgnoredW3 (d : BitVec 32)
  /-- `READ_CTRL`: read of word 0; `d` is the ignored `h_wdata` (R196). -/
  | readCtrl (d : BitVec 32)
  /-- `GET_STATUS`: read of word 1 (R194). -/
  | getStatus (d : BitVec 32)
  /-- `GET_HUMIDITY`: read of word 2 (R193). -/
  | getHumidity (d : BitVec 32)
  /-- `GET_TEMPERATURE`: read of word 3 (R192). -/
  | getTemperature (d : BitVec 32)
  /-- `IDLE` (`WAITRUN`): one tick of it (R181). -/
  | idle
  /-- `WAKE_LOW` (`DRIVE 0, 3000`): one tick of it (R121). -/
  | wakeLow
  /-- `WAKE_HIGH` (`DRIVE 1, 25`): one tick of it (R122). -/
  | wakeHigh
  /-- `ACK_LOW` (`MEASURE 0, 85`): one tick of it (R124). -/
  | ackLow
  /-- `ACK_HIGH` (`MEASURE 1, 85`): one tick of it (R125). -/
  | ackHigh
  /-- `BIT_LOW` (`MEASURE 0, 56`): one tick of it (R141). -/
  | bitLow
  /-- `BIT_HIGH` (`MEASURE 1, 75`, then `SHIFT`, after bit 39 `EVAL`): one tick of it (R142). -/
  | bitHigh
  /-- `SLEEP` (`PAUSE 4000000`): one tick of it (R183). -/
  | sleep
  /-- `FRAME`: a completed 40-bit frame, humidity, sign, magnitude and checksum fields (R72); what the block
  does with it is the evaluation (R160). -/
  | frame (h : BitVec 16) (sgn : BitVec 1) (m : BitVec 15) (c : BitVec 8)
  /-- `LAST_NONE`: the status code 0, no attempt has finished (R76). -/
  | lastNone
  /-- `LAST_OK`: the status code 1; what the loop does with it is row `Ok` of R182. -/
  | lastOk
  /-- `LAST_TIMEOUT`: the status code 2; row `TimeoutError` of R182. -/
  | lastTimeout
  /-- `LAST_CHECKSUM`: the status code 3; row `ChecksumError` of R182. -/
  | lastChecksum
  /-- `STATUS_WORD`: the word `GET_STATUS` returns, with `LAST` in bits 2:1 and `RUN` in bit 0 (R77). -/
  | statusWord (l : Status) (r : Bool)
  deriving DecidableEq, Repr

end Sys2Proof
end

