-- ==== Sys2Proof/WellFormed.lean ====
section
/-! DEFINITION. Well-formedness. The sequencer's operations have a listing notation with operands
(30_encoding.md R79), and this hardware wires exactly the operands of the fixed sequence (R81): a listing
operation is well formed when it is one of those. An instruction is well formed when the operations its row
lists are; the fields of every other row are held by their types. -/

namespace Sys2Proof

/-- An operation of the listing notation (R79). -/
inductive ListingOp where
  | waitRun
  | drive (level : Level) (ticks : Nat)
  | release
  | measure (level : Level) (bound : Nat)
  | shift
  | eval
  | pause (ticks : Nat)
  deriving DecidableEq, Repr

/-- The operands this hardware has for the operation (R81, R100). -/
def ListingOp.wellFormed : ListingOp → Bool
  | .waitRun => true
  | .drive .low n => n == Machine.tWakeLow
  | .drive .high n => n == Machine.tWakeHigh
  | .release => true
  | .measure .low n => n == Machine.tmoAckLow || n == Machine.tmoBitLow
  | .measure .high n => n == Machine.tmoAckHigh || n == Machine.tmoBitHigh
  | .shift => true
  | .eval => true
  | .pause n => n == Machine.tSleep

/-- The operations of a phase (30_encoding.md R78, column "operation in the listing"). -/
def phaseListing : Phase → List ListingOp
  | .idle => [.waitRun]
  | .wakeLow => [.drive .low 3000]
  | .wakeHigh => [.drive .high 25, .release]
  | .ackLow => [.measure .low 85]
  | .ackHigh => [.measure .high 85]
  | .bitLow => [.measure .low 56]
  | .bitHigh => [.measure .high 75, .shift, .eval]
  | .sleep => [.pause 4000000]

/-- The operations an instruction's row lists: those of its phase; a completed frame is evaluated (R72, R160). -/
def Instr.listing : Instr → List ListingOp
  | .startSampling _ => []
  | .ctrlNop _ => []
  | .writeIgnoredW1 _ => []
  | .writeIgnoredW2 _ => []
  | .writeIgnoredW3 _ => []
  | .readCtrl _ => []
  | .getStatus _ => []
  | .getHumidity _ => []
  | .getTemperature _ => []
  | .idle => phaseListing .idle
  | .wakeLow => phaseListing .wakeLow
  | .wakeHigh => phaseListing .wakeHigh
  | .ackLow => phaseListing .ackLow
  | .ackHigh => phaseListing .ackHigh
  | .bitLow => phaseListing .bitLow
  | .bitHigh => phaseListing .bitHigh
  | .sleep => phaseListing .sleep
  | .frame _ _ _ _ => [.eval]
  | .lastNone => []
  | .lastOk => []
  | .lastTimeout => []
  | .lastChecksum => []
  | .statusWord _ _ => []

/-- An instruction is well formed when every operation it lists has the wired operands. -/
def Instr.wellFormed (i : Instr) : Bool := i.listing.all ListingOp.wellFormed

end Sys2Proof
end

