-- ==== Sys2Proof/Decode.lean ====
section
/-! DEFINITION. Encodings: the five code spaces of the opcode table, the decoder of each and the encoder.
The host transaction word is 35 bits (30_encoding.md R82), a phase 3 bits (R78), a frame 40 bits (R72), a
status code 2 bits (R76) and the `STATUS` word 32 bits (R77). A code is read in the space it stands in: the
same bits name different rows in different spaces. -/

namespace Sys2Proof

/-- The five code spaces (30_encoding.md, opening; the "format" of the opcode table's rows). -/
inductive Format where
  | host35
  | phase3
  | frame40
  | last2
  | word32
  deriving DecidableEq, Repr

/-- Why a number is no code of a space: it has bits above the space's width, or it sets a bit of the
`STATUS` word that reads as 0 (R77). -/
inductive DecodeError where
  | tooWide
  | statusBitsNotZero
  deriving DecidableEq, Repr

/-- Width of a code space in bits. -/
def formatWidth : Format → Nat
  | .host35 => 35
  | .phase3 => 3
  | .frame40 => 40
  | .last2 => 2
  | .word32 => 32

/-! ## Phase and status codes -/

/-- The 3-bit code of a phase (R78). -/
def phaseCode : Phase → BitVec 3
  | .idle => 0b000#3
  | .wakeLow => 0b001#3
  | .wakeHigh => 0b010#3
  | .ackLow => 0b011#3
  | .ackHigh => 0b100#3
  | .bitLow => 0b101#3
  | .bitHigh => 0b110#3
  | .sleep => 0b111#3

/-- The phase of a 3-bit code; all eight are used (R78). -/
def phaseOfCode (c : BitVec 3) : Phase :=
  if c = 0b000#3 then .idle
  else if c = 0b001#3 then .wakeLow
  else if c = 0b010#3 then .wakeHigh
  else if c = 0b011#3 then .ackLow
  else if c = 0b100#3 then .ackHigh
  else if c = 0b101#3 then .bitLow
  else if c = 0b110#3 then .bitHigh
  else .sleep

/-- The 2-bit code of a Decode Status (R76). -/
def statusCode : Status → BitVec 2
  | .noneYet => 0b00#2
  | .ok => 0b01#2
  | .timeout => 0b10#2
  | .checksum => 0b11#2

/-- The Decode Status of a 2-bit code; all four are used (R76). -/
def statusOfCode (c : BitVec 2) : Status :=
  if c = 0b00#2 then .noneYet
  else if c = 0b01#2 then .ok
  else if c = 0b10#2 then .timeout
  else .checksum

/-- The 32-bit `STATUS` word: bit 0 `RUN`, bits 2:1 `LAST`, bits 31:3 zero (R77). -/
def statusBits (l : Status) (r : Bool) : Word := (0#29) ++ statusCode l ++ BitVec.ofBool r

/-! ## Decoders -/

/-- The instruction that performs one tick of a phase. -/
def phaseInstr : Phase → Instr
  | .idle => .idle
  | .wakeLow => .wakeLow
  | .wakeHigh => .wakeHigh
  | .ackLow => .ackLow
  | .ackHigh => .ackHigh
  | .bitLow => .bitLow
  | .bitHigh => .bitHigh
  | .sleep => .sleep

/-- The row of a status code. -/
def statusInstr : Status → Instr
  | .noneYet => .lastNone
  | .ok => .lastOk
  | .timeout => .lastTimeout
  | .checksum => .lastChecksum

/-- The complete decode of a host transaction word (R82): bit 34 is `h_we`, bits 33:32 `h_addr`, bits 31:0
`h_wdata`. Every word decodes. -/
def decodeHost (w : BitVec 35) : Instr :=
  let d := w.extractLsb' 0 32
  let addr := w.extractLsb' 32 2
  if w.getLsbD 34 then
    if addr = 0b00#2 then
      if w.getLsbD 0 then .startSampling (w.extractLsb' 1 31) else .ctrlNop (w.extractLsb' 1 31)
    else if addr = 0b01#2 then .writeIgnoredW1 d
    else if addr = 0b10#2 then .writeIgnoredW2 d
    else .writeIgnoredW3 d
  else if addr = 0b00#2 then .readCtrl d
  else if addr = 0b01#2 then .getStatus d
  else if addr = 0b10#2 then .getHumidity d
  else .getTemperature d

/-- The row of a phase code (R78). -/
def decodePhase (c : BitVec 3) : Instr := phaseInstr (phaseOfCode c)

/-- A received frame as its fields (R72). -/
def decodeFrame (w : BitVec 40) : Instr :=
  .frame (w.extractLsb' 24 16) (w.extractLsb' 23 1) (w.extractLsb' 8 15) (w.extractLsb' 0 8)

/-- The row of a status code (R76). -/
def decodeLast (c : BitVec 2) : Instr := statusInstr (statusOfCode c)

/-- The fields of a `STATUS` word; a word with one of bits 31:3 set is none (R77). -/
def decodeStatusWord (w : Word) : Except DecodeError Instr :=
  if w.extractLsb' 3 29 = 0#29 then .ok (.statusWord (statusOfCode (w.extractLsb' 1 2)) (w.getLsbD 0))
  else .error .statusBitsNotZero

/-- The decoder, total on any number in any code space, refusing by name. -/
def decode (f : Format) (n : Nat) : Except DecodeError Instr :=
  if n < 2 ^ formatWidth f then
    match f with
    | .host35 => .ok (decodeHost (BitVec.ofNat 35 n))
    | .phase3 => .ok (decodePhase (BitVec.ofNat 3 n))
    | .frame40 => .ok (decodeFrame (BitVec.ofNat 40 n))
    | .last2 => .ok (decodeLast (BitVec.ofNat 2 n))
    | .word32 => decodeStatusWord (BitVec.ofNat 32 n)
  else .error .tooWide

/-- The code space a table row of `nbits` bits is read in, for the word `w`. A row's own width names its
space; rounded up to whole bytes, 8 bits are read as a phase and 40 bits as a host transaction when the word
fits in 35 bits, else as a frame (log entry 3: the table's spaces overlap once widths are rounded). -/
def tableFormat (nbits w : Nat) : Option Format :=
  if nbits = 35 then some .host35
  else if nbits = 3 then some .phase3
  else if nbits = 2 then some .last2
  else if nbits = 32 then some .word32
  else if nbits = 8 then some .phase3
  else if nbits = 40 then (if w < 2 ^ 35 then some .host35 else some .frame40)
  else none

/-- The instruction the decoder reads from a table word. -/
def decodeTableWord (nbits w : Nat) : Option Instr :=
  match tableFormat nbits w with
  | none => none
  | some f =>
    match decode f w with
    | .ok i => some i
    | .error _ => none

/-! ## The encoder -/

/-- The code space of an instruction's row. -/
def instrFormat : Instr → Format
  | .startSampling _ => .host35
  | .ctrlNop _ => .host35
  | .writeIgnoredW1 _ => .host35
  | .writeIgnoredW2 _ => .host35
  | .writeIgnoredW3 _ => .host35
  | .readCtrl _ => .host35
  | .getStatus _ => .host35
  | .getHumidity _ => .host35
  | .getTemperature _ => .host35
  | .idle => .phase3
  | .wakeLow => .phase3
  | .wakeHigh => .phase3
  | .ackLow => .phase3
  | .ackHigh => .phase3
  | .bitLow => .phase3
  | .bitHigh => .phase3
  | .sleep => .phase3
  | .frame _ _ _ _ => .frame40
  | .lastNone => .last2
  | .lastOk => .last2
  | .lastTimeout => .last2
  | .lastChecksum => .last2
  | .statusWord _ _ => .word32

/-- A host transaction word from `h_we`, `h_addr` and `h_wdata` (R82). -/
def hostWord (we : BitVec 1) (addr : BitVec 2) (d : BitVec 32) : BitVec 35 := we ++ addr ++ d

/-- The code of an instruction, as a number, from the encoding tables of 30_encoding.md (R72, R76, R77, R78, R82). -/
def encode : Instr → Nat
  | .startSampling d => (hostWord 1#1 0b00#2 (d ++ 1#1)).toNat
  | .ctrlNop d => (hostWord 1#1 0b00#2 (d ++ 0#1)).toNat
  | .writeIgnoredW1 d => (hostWord 1#1 0b01#2 d).toNat
  | .writeIgnoredW2 d => (hostWord 1#1 0b10#2 d).toNat
  | .writeIgnoredW3 d => (hostWord 1#1 0b11#2 d).toNat
  | .readCtrl d => (hostWord 0#1 0b00#2 d).toNat
  | .getStatus d => (hostWord 0#1 0b01#2 d).toNat
  | .getHumidity d => (hostWord 0#1 0b10#2 d).toNat
  | .getTemperature d => (hostWord 0#1 0b11#2 d).toNat
  | .idle => (phaseCode .idle).toNat
  | .wakeLow => (phaseCode .wakeLow).toNat
  | .wakeHigh => (phaseCode .wakeHigh).toNat
  | .ackLow => (phaseCode .ackLow).toNat
  | .ackHigh => (phaseCode .ackHigh).toNat
  | .bitLow => (phaseCode .bitLow).toNat
  | .bitHigh => (phaseCode .bitHigh).toNat
  | .sleep => (phaseCode .sleep).toNat
  | .frame h sgn m c => (Machine.frameBits h sgn m c).toNat
  | .lastNone => (statusCode .noneYet).toNat
  | .lastOk => (statusCode .ok).toNat
  | .lastTimeout => (statusCode .timeout).toNat
  | .lastChecksum => (statusCode .checksum).toNat
  | .statusWord l r => (statusBits l r).toNat

/-! ## The opcode table's rows -/

/-- One row of the opcode table: a code `n` of the space is the row's when `n &&& mask = value`. -/
structure OpcodeRow where
  mnemonic : String
  format : Format
  value : Nat
  mask : Nat
  deriving DecidableEq, Repr

/-- The nine rows of format `HOST35`. -/
def hostRows : List OpcodeRow :=
  [⟨"START_SAMPLING", .host35, 0x400000001, 0x700000001⟩,
   ⟨"CTRL_NOP", .host35, 0x400000000, 0x700000001⟩,
   ⟨"WRITE_IGNORED_W1", .host35, 0x500000000, 0x700000000⟩,
   ⟨"WRITE_IGNORED_W2", .host35, 0x600000000, 0x700000000⟩,
   ⟨"WRITE_IGNORED_W3", .host35, 0x700000000, 0x700000000⟩,
   ⟨"READ_CTRL", .host35, 0x000000000, 0x700000000⟩,
   ⟨"GET_STATUS", .host35, 0x100000000, 0x700000000⟩,
   ⟨"GET_HUMIDITY", .host35, 0x200000000, 0x700000000⟩,
   ⟨"GET_TEMPERATURE", .host35, 0x300000000, 0x700000000⟩]

/-- The eight rows of format `PHASE3`. -/
def phaseRows : List OpcodeRow :=
  [⟨"IDLE", .phase3, 0x0, 0x7⟩, ⟨"WAKE_LOW", .phase3, 0x1, 0x7⟩,
   ⟨"WAKE_HIGH", .phase3, 0x2, 0x7⟩, ⟨"ACK_LOW", .phase3, 0x3, 0x7⟩,
   ⟨"ACK_HIGH", .phase3, 0x4, 0x7⟩, ⟨"BIT_LOW", .phase3, 0x5, 0x7⟩,
   ⟨"BIT_HIGH", .phase3, 0x6, 0x7⟩, ⟨"SLEEP", .phase3, 0x7, 0x7⟩]

/-- The rows of formats `FRAME40`, `LAST2` and `WORD32`. -/
def dataRows : List OpcodeRow :=
  [⟨"FRAME", .frame40, 0x0, 0x0⟩,
   ⟨"LAST_NONE", .last2, 0x0, 0x3⟩, ⟨"LAST_OK", .last2, 0x1, 0x3⟩,
   ⟨"LAST_TIMEOUT", .last2, 0x2, 0x3⟩, ⟨"LAST_CHECKSUM", .last2, 0x3, 0x3⟩,
   ⟨"STATUS_WORD", .word32, 0x00000000, 0xFFFFFFF8⟩]

/-- The whole opcode table. -/
def opcodeRows : List OpcodeRow := hostRows ++ phaseRows ++ dataRows

/-- Whether the code `n` is of the row. -/
def rowMatches (r : OpcodeRow) (n : Nat) : Bool := (n &&& r.mask) == r.value

/-- The mnemonic of an instruction's row. -/
def instrMnemonic : Instr → String
  | .startSampling _ => "START_SAMPLING"
  | .ctrlNop _ => "CTRL_NOP"
  | .writeIgnoredW1 _ => "WRITE_IGNORED_W1"
  | .writeIgnoredW2 _ => "WRITE_IGNORED_W2"
  | .writeIgnoredW3 _ => "WRITE_IGNORED_W3"
  | .readCtrl _ => "READ_CTRL"
  | .getStatus _ => "GET_STATUS"
  | .getHumidity _ => "GET_HUMIDITY"
  | .getTemperature _ => "GET_TEMPERATURE"
  | .idle => "IDLE"
  | .wakeLow => "WAKE_LOW"
  | .wakeHigh => "WAKE_HIGH"
  | .ackLow => "ACK_LOW"
  | .ackHigh => "ACK_HIGH"
  | .bitLow => "BIT_LOW"
  | .bitHigh => "BIT_HIGH"
  | .sleep => "SLEEP"
  | .frame _ _ _ _ => "FRAME"
  | .lastNone => "LAST_NONE"
  | .lastOk => "LAST_OK"
  | .lastTimeout => "LAST_TIMEOUT"
  | .lastChecksum => "LAST_CHECKSUM"
  | .statusWord _ _ => "STATUS_WORD"

end Sys2Proof
end

