-- ==== Sys2Proof/Machine/State.lean ====
section
/-! DEFINITION. The architectural state (10_state.md R20) as plain data, with the values the block presents to
its surroundings and what the surroundings present to it; and the state after reset (R38). -/

namespace Sys2Proof.Machine

/-- Why a step stops with a fault. -/
inductive Fault where
  /-- A second `START_SAMPLING` while `RUN = 1` (45_host_ops.md R191, 60_exceptions.md R221): raised by the
  meaning of `START_SAMPLING` only. Safe: the spec says nothing of such an execution, and neither can a proof. -/
  | secondStart
  deriving DecidableEq, Repr

/-- Why a step is refused. -/
inductive Refusal where
  /-- An instruction whose meaning has not been written: raised by no arm. Safe. -/
  | notModelled (mnemonic : String)
  deriving DecidableEq, Repr

structure State where
  /-- `RUN` (R21): the sampler has been launched. -/
  run : Bool
  /-- `PH` (R22): the phase, the block's program counter. -/
  ph : Phase
  /-- `BITIDX` (R23): the index of the data bit being received. -/
  bitIdx : BitVec 6
  /-- `DLY` (R24): ticks spent so far in a drive phase or in `SLEEP`. -/
  dly : BitVec 22
  /-- `EL` (R25): elapsed count of the wait in progress. -/
  el : BitVec 8
  /-- `RAW` (R26): the Raw Register. -/
  raw : BitVec 40
  /-- `HUM_RAW` (R27): the Reading's humidity in tenths of a percent. -/
  humRaw : BitVec 16
  /-- `TMP_SIGN` (R28): the Reading's temperature sign, true is negative. -/
  tmpSign : Bool
  /-- `TMP_MAG` (R28): the Reading's temperature magnitude in tenths of a degree. -/
  tmpMag : BitVec 15
  /-- `LAST` (R29): the Decode Status of the most recently finished attempt. -/
  last : Status
  /-- The input capture register (R31): the level of the line sampled at the current tick. -/
  pinIn : Level
  /-- The event outputs (60_exceptions.md R218): the one that is high in the interval after the latest tick. -/
  strobe : Option Strobe
  /-- `h_rdata` (20_memory.md R53): the word the latest host read returned. -/
  hRdata : Word
  /-- The number of the next tick, counted from the release of reset (00_scope.md R7). -/
  tickNo : Nat
  /-- What the surroundings present next, in order (R8); the model's own field. -/
  env : List Event
  /-- How many free events were drawn after the listed ones; the model's own field (log entry 1). -/
  draws : Nat
  deriving DecidableEq, Repr

/-- The state after reset (R38). `hRdata` and `pinIn` have no reset value in the spec (log entries 4 and 5);
nothing is listed in `env` and no free event has been drawn. -/
def State.reset : State where
  run := false
  ph := .idle
  bitIdx := 0
  dly := 0
  el := 0
  raw := 0
  humRaw := 0
  tmpSign := false
  tmpMag := 0
  last := .noneYet
  pinIn := .low
  strobe := none
  hRdata := 0
  tickNo := 0
  env := []
  draws := 0

end Sys2Proof.Machine
end

