-- ==== Sys2Proof/Machine/Flags.lean ====
section
/-! DEFINITION. The block's comparisons and status-like values (10_state.md R34): the checksum
(43_evaluate.md R163), the status and event of an outcome (44_sampler.md R182), the `STATUS` word
(30_encoding.md R77), the pin drive (10_state.md R30) and the binary32 rendering of the getters (R36). -/

namespace Sys2Proof.Machine

/-- The low 8 bits of the sum of the four payload bytes, added as unsigned integers (R163). -/
def payloadSum (raw : BitVec 40) : Byte :=
  BitVec.ofNat 8 ((rawByte raw 0).toNat + (rawByte raw 1).toNat + (rawByte raw 2).toNat + (rawByte raw 3).toNat)

/-- A received frame is valid when its checksum byte is the sum of the others (R74). -/
def frameValid (raw : BitVec 40) : Bool := payloadSum raw == rawByte raw 4

/-- The Decode Status an event reports (R182). -/
def strobeStatus : Strobe → Status
  | .ok => .ok
  | .timeout => .timeout
  | .checksum => .checksum

/-- The `STATUS` word of a state (R77, R194). -/
def statusOf (s : State) : Word := statusBits s.last s.run

/-! ## The pin (R30) -/

/-- `pin_oe`: whether the block drives the line, a function of the phase alone. -/
def pinOe : Phase → Bool
  | .wakeLow => true
  | .wakeHigh => true
  | .idle => false
  | .ackLow => false
  | .ackHigh => false
  | .bitLow => false
  | .bitHigh => false
  | .sleep => false

/-- `pin_out`: the level driven; in a phase that releases the line it is a free value (log entry 2). -/
def pinOut : Phase → Level
  | .wakeLow => .low
  | .wakeHigh => .high
  | .idle => Config.pinOutReleased .idle
  | .ackLow => Config.pinOutReleased .ackLow
  | .ackHigh => Config.pinOutReleased .ackHigh
  | .bitLow => Config.pinOutReleased .bitLow
  | .bitHigh => Config.pinOutReleased .bitHigh
  | .sleep => Config.pinOutReleased .sleep

/-! ## Binary32 (R36) -/

/-- The natural number nearest to `a / b`, ties to even. -/
def roundHalfEven (a b : Nat) : Nat :=
  let q := a / b
  let r := a % b
  if b < 2 * r then q + 1
  else if 2 * r = b ∧ q % 2 = 1 then q + 1
  else q

/-- The least `k` not below the start, among the next `fuel` ones, with `num * 2 ^ k / den` at least `2 ^ 23`:
the scale at which the quotient has the 24 significant bits of binary32. -/
def binaryScale (num den : Nat) : Nat → Nat → Nat
  | 0, k => k
  | fuel + 1, k => if den * 2 ^ 23 ≤ num * 2 ^ k then k else binaryScale num den fuel (k + 1)

/-- `f32(q)` for `q = num / den`, negated when `neg` (R36): the binary32 value nearest to `q`, ties to even, sign
in bit 31, exponent in 30:23, fraction in 22:0; a negated zero is the pattern 0x80000000. Exact for every
quotient that is 0 or from `2 ^ -16` up to `2 ^ 24`, and the Reading's lie in 0 to 6553.5. -/
def f32 (neg : Bool) (num den : Nat) : Word :=
  let sign := if neg then 2 ^ 31 else 0
  if num = 0 then BitVec.ofNat 32 sign
  else
    let k := binaryScale num den 40 0
    let m := roundHalfEven (num * 2 ^ k) den
    BitVec.ofNat 32 (sign + (150 - k) * 2 ^ 23 + (m - 2 ^ 23))

/-- The word `GET_HUMIDITY` returns: `f32(HUM_RAW / 10)` (R193). -/
def humidityWord (s : State) : Word := f32 false s.humRaw.toNat 10

/-- The word `GET_TEMPERATURE` returns: `f32((-1)^TMP_SIGN * TMP_MAG / 10)` (R192). -/
def temperatureWord (s : State) : Word := f32 s.tmpSign s.tmpMag.toNat 10

end Sys2Proof.Machine
end

