-- ==== Sys2Proof/Machine/TimingUnit.lean ====
section
/-! DEFINITION. The Signal Timing Primitive, `MEASURE L, T` (40_timing_unit.md): as a function of the line (R101) and
as a step of the sequencer (R102). -/

namespace Sys2Proof.Machine

/-- R101's loop at count `k`, with `fuel` tests left: the result and the tick it is given at. The level test
comes first, then the count is increased and compared with the bound. -/
def measureLoop (line : Nat → Level) (n0 : Nat) (L : Level) (T : Nat) : Nat → Nat → WaitResult × Nat
  | 0, k => (.timeout, n0 + k - 1)
  | fuel + 1, k =>
    if line (n0 + k) ≠ L then (.done k, n0 + k)
    else if T < k + 1 then (.timeout, n0 + (k + 1) - 1)
    else measureLoop line n0 L T fuel (k + 1)

/-- `measure(line, n0, L, T, k0)` (R101). The loop makes at most `T + 1` tests, so that much fuel is enough. -/
def measure (line : Nat → Level) (n0 : Nat) (L : Level) (T k0 : Nat) : WaitResult × Nat :=
  measureLoop line n0 L T (T + 1) k0

/-- The result the wait in progress has at this tick, or none when it goes on (R102): `EL` is the count, the
capture register the sample. -/
def waitStep (L : Level) (T : Nat) (s : State) : Option WaitResult :=
  if s.pinIn ≠ L then some (.done s.el.toNat)
  else if T < s.el.toNat + 1 then some .timeout
  else none

end Sys2Proof.Machine
end

