-- ==== Sys2Proof/Machine/Ops.lean ====
section
/-! DEFINITION. The named operations over the state: the start and the end of a decode attempt, the abort, the wait
and its chaining, the capture of a bit, the evaluation, the drive and the pause counters, the host port, and
what the surroundings do between them. -/

namespace Sys2Proof.Machine

/-! ## An attempt starts and ends -/

/-- Attempt start (41_handshake.md R120): also what follows the pause after an error, the block's only
"return" (60_exceptions.md R217). -/
def startAttempt (s : State) : State :=
  { s with ph := .wakeLow, dly := 0, raw := 0, bitIdx := 0 }

/-- The end of an attempt (44_sampler.md R182): the status is recorded, the event emitted, the pause begins. -/
def endAttempt (e : Strobe) (s : State) : State :=
  { s with last := strobeStatus e, strobe := some e, ph := .sleep, dly := 0 }

/-- `abort(TimeoutError)` (60_exceptions.md R215). -/
def abortTimeout (s : State) : State := endAttempt .timeout s

/-- Entry for `ChecksumError` (60_exceptions.md R216, 43_evaluate.md R165). -/
def failChecksum (s : State) : State := endAttempt .checksum s

/-- `Ok` and commit (43_evaluate.md R164): the Reading is replaced, whole, by the fields of the Raw Register. -/
def commitOk (s : State) : State :=
  endAttempt .ok
    { s with humRaw := humField s.raw, tmpSign := signField s.raw, tmpMag := magField s.raw }

/-- `EVAL` (43_evaluate.md R160) on the completed Raw Register. -/
def evaluate (s : State) : State :=
  if frameValid s.raw then commitOk s else failChecksum s

/-! ## Drive phases and the pause -/

/-- A counted phase at one tick (41_handshake.md R121, R122, 44_sampler.md R183): at the last of `ticks` ticks it
is left, before that the delay counter goes up by one. -/
def countTick (ticks : Nat) (leave : State → State) (s : State) : State :=
  if s.dly.toNat = ticks - 1 then leave s else { s with dly := s.dly + 1 }

/-- From the wake-up pulse to the high drive (R121). -/
def enterWakeHigh (s : State) : State := { s with ph := .wakeHigh, dly := 0 }

/-- `RELEASE` (41_handshake.md R122, R123): the first acknowledgement wait starts fresh. -/
def releaseLine (s : State) : State := { s with ph := .ackLow, dly := 0, el := 0 }

/-! ## Waits and bit capture -/

/-- The next wait of a chain: the sample that ended the one before is its first (40_timing_unit.md R109). -/
def enterWait (p : Phase) (s : State) : State := { s with ph := p, el := 1 }

/-- One tick of a wait phase (40_timing_unit.md R102): it ends with a count, or is aborted, or counts on. -/
def runWait (L : Level) (T : Nat) (onDone : Nat → State → State) (s : State) : State :=
  match waitStep L T s with
  | some (.done r) => onDone r s
  | some .timeout => abortTimeout s
  | none => { s with el := s.el + 1 }

/-- What `BIT_HIGH` does with its count (42_bit_capture.md R142 to R145): the bit is shifted in; after bit 39 the
frame is evaluated in the same tick, before that the next bit's low wait begins. -/
def receiveBit (r : Nat) (s : State) : State :=
  let s' := { s with raw := shiftIn s.raw (thresholdBit r) }
  if s.bitIdx.toNat = nBits - 1 then evaluate s'
  else enterWait .bitLow { s' with bitIdx := s.bitIdx + 1 }

/-! ## The host port (20_memory.md R53) -/

/-- The word at an index of the host window; reading it has no side effect (R53, R55). -/
def windowWord (idx : BitVec 2) (s : State) : Word :=
  if idx = 0b00#2 then 0
  else if idx = 0b01#2 then statusOf s
  else if idx = 0b10#2 then humidityWord s
  else temperatureWord s

/-- A host read completes with a word. -/
def hostReturn (w : Word) (s : State) : State := { s with hRdata := w }

/-! ## What the surroundings present -/

/-- The next event and the state once it is taken: the first of the listed ones, else a free one. -/
def takeEvent (s : State) : Event × State :=
  match s.env with
  | e :: rest => (e, { s with env := rest })
  | [] => (Config.freeEvent s.draws, { s with draws := s.draws + 1 })

/-- A tick begins: the line is sampled, the event outputs of the tick before go low (60_exceptions.md R218), and
the tick is counted (00_scope.md R7). -/
def beginTick (sample : Level) (s : State) : State :=
  { s with pinIn := sample, strobe := none, tickNo := s.tickNo + 1 }

/-- Reset in any state (70_reset_and_hazards.md R240, R242): every element takes its reset value. What the
surroundings will present is theirs and is kept. -/
def applyReset (s : State) : State :=
  { State.reset with env := s.env, draws := s.draws }

/-! ## Placing a table word where the next step runs it (log entry 3) -/

/-- The surroundings' next event. -/
def presentEvent (e : Event) (s : State) : State := { s with env := e :: s.env }

/-- Ready to receive a frame's last bit at a low sample: 39 bits are in, and `BIT_HIGH` has counted 41 or 40. -/
def placeFrame (w : BitVec 40) (s : State) : State :=
  presentEvent (.tick .low)
    { s with ph := .bitHigh, bitIdx := 39, raw := w >>> 1, el := if w.getLsbD 0 then 41 else 40 }

/-- The state whose next step runs the code `n` of a space. -/
def placeCode (f : Format) (n : Nat) (s : State) : State :=
  match f with
  | .host35 => presentEvent (.host (BitVec.ofNat 35 n)) s
  | .phase3 => presentEvent (.tick s.pinIn) { s with ph := phaseOfCode (BitVec.ofNat 3 n) }
  | .frame40 => placeFrame (BitVec.ofNat 40 n) s
  | .last2 =>
    match statusOfCode (BitVec.ofNat 2 n) with
    | .noneYet => presentEvent .reset s
    | .ok => placeFrame 0 s
    | .timeout => presentEvent (.tick .low) { s with ph := .ackLow, el := 85 }
    | .checksum => placeFrame 1 s
  | .word32 =>
    presentEvent (.host (hostWord 0#1 0b01#2 0))
      { s with run := (BitVec.ofNat 32 n).getLsbD 0, last := statusOfCode ((BitVec.ofNat 32 n).extractLsb' 1 2) }

end Sys2Proof.Machine
end

