-- ==== Sys2Proof/Machine/Drive.lean ====
section
/-! DEFINITION. The drive phases of the handshake (41_handshake.md). The line sample is not looked at. -/

namespace Sys2Proof.Machine

/-- `WAKE_LOW`, `DRIVE 0, 3000` (R121). -/
def execWakeLow (s : State) : Host.Outcome State Fault Refusal :=
  .next (countTick tWakeLow enterWakeHigh s)

/-- `WAKE_HIGH`, `DRIVE 1, 25`, then `RELEASE` (R122, R123). -/
def execWakeHigh (s : State) : Host.Outcome State Fault Refusal :=
  .next (countTick tWakeHigh releaseLine s)

end Sys2Proof.Machine
end

