-- ==== Sys2Proof/Machine/Evaluate.lean ====
section
/-! DEFINITION. What the block does with a completed frame (43_evaluate.md R160, 30_encoding.md R72) and with a
Decode Status (44_sampler.md R182, 30_encoding.md R76). These rows are codes the sequencer acts on inside the
tick that ends an attempt; their meaning is that part of the tick (log entry 6). -/

namespace Sys2Proof.Machine

/-- `FRAME`: with these 40 bits in the Raw Register the frame is evaluated (R160). -/
def execFrame (h : BitVec 16) (sgn : BitVec 1) (m : BitVec 15) (c : BitVec 8) (s : State) :
    Host.Outcome State Fault Refusal :=
  .next (evaluate { s with raw := frameBits h sgn m c })

/-- `LAST_NONE`: `LAST` says that no attempt has finished; nothing else happens (R29, R76). -/
def execLastNone (s : State) : Host.Outcome State Fault Refusal :=
  .next { s with last := .noneYet }

/-- `LAST_OK`: row `Ok` of R182, the commit (R164). -/
def execLastOk (s : State) : Host.Outcome State Fault Refusal := .next (commitOk s)

/-- `LAST_TIMEOUT`: row `TimeoutError` of R182, the abort (R215). -/
def execLastTimeout (s : State) : Host.Outcome State Fault Refusal := .next (abortTimeout s)

/-- `LAST_CHECKSUM`: row `ChecksumError` of R182 (R165, R216). -/
def execLastChecksum (s : State) : Host.Outcome State Fault Refusal := .next (failChecksum s)

end Sys2Proof.Machine
end

