-- ==== Sys2Proof/Machine/HostOps.lean ====
section
/-! DEFINITION. The host transactions (45_host_ops.md) and the word `GET_STATUS` returns (30_encoding.md R77). -/

namespace Sys2Proof.Machine

/-- `START_SAMPLING` (R190); while `RUN = 1` it is the host's breach of duty and faults (R191). -/
def execStartSampling (_d : BitVec 31) (s : State) : Host.Outcome State Fault Refusal :=
  if s.run then .fault .secondStart else .next { s with run := true }

/-- `CTRL_NOP` (R196): no effect. -/
def execCtrlNop (_d : BitVec 31) (s : State) : Host.Outcome State Fault Refusal := .next s

/-- `WRITE_IGNORED`, word 1 (R196): no effect. -/
def execWriteIgnoredW1 (_d : BitVec 32) (s : State) : Host.Outcome State Fault Refusal := .next s

/-- `WRITE_IGNORED`, word 2 (R196): no effect. -/
def execWriteIgnoredW2 (_d : BitVec 32) (s : State) : Host.Outcome State Fault Refusal := .next s

/-- `WRITE_IGNORED`, word 3 (R196): no effect. -/
def execWriteIgnoredW3 (_d : BitVec 32) (s : State) : Host.Outcome State Fault Refusal := .next s

/-- `READ_CTRL` (R196): returns zero. -/
def execReadCtrl (_d : BitVec 32) (s : State) : Host.Outcome State Fault Refusal :=
  .next (hostReturn (windowWord 0b00#2 s) s)

/-- `GET_STATUS` (R194). -/
def execGetStatus (_d : BitVec 32) (s : State) : Host.Outcome State Fault Refusal :=
  .next (hostReturn (windowWord 0b01#2 s) s)

/-- `GET_HUMIDITY` (R193). -/
def execGetHumidity (_d : BitVec 32) (s : State) : Host.Outcome State Fault Refusal :=
  .next (hostReturn (windowWord 0b10#2 s) s)

/-- `GET_TEMPERATURE` (R192). -/
def execGetTemperature (_d : BitVec 32) (s : State) : Host.Outcome State Fault Refusal :=
  .next (hostReturn (windowWord 0b11#2 s) s)

/-- `STATUS_WORD`: the read of word 1 completes with this word (R77, R194; log entry 6). -/
def execStatusWord (l : Status) (r : Bool) (s : State) : Host.Outcome State Fault Refusal :=
  .next (hostReturn (statusBits l r) s)

end Sys2Proof.Machine
end

