-- ==== Sys2Proof/Machine/Sampler.lean ====
section
/-! DEFINITION. The Periodic Sampler's own phases (44_sampler.md). The line sample is not looked at. -/

namespace Sys2Proof.Machine

/-- `IDLE`, `WAITRUN` (R181). -/
def execIdle (s : State) : Host.Outcome State Fault Refusal :=
  .next (if s.run then startAttempt s else s)

/-- `SLEEP`, `PAUSE 4000000` (R183). -/
def execSleep (s : State) : Host.Outcome State Fault Refusal :=
  .next (countTick tSleep startAttempt s)

end Sys2Proof.Machine
end

