-- ==== Sys2Proof/Machine/Wait.lean ====
section
/-! DEFINITION. The four wait phases: the acknowledgement (41_handshake.md) and the two waits of a bit
(42_bit_capture.md). The measured value is discarded in all but `BIT_HIGH` (R127, R146). -/

namespace Sys2Proof.Machine

/-- `ACK_LOW`, `MEASURE 0, 85` (R124). -/
def execAckLow (s : State) : Host.Outcome State Fault Refusal :=
  .next (runWait .low tmoAckLow (fun _ => enterWait .ackHigh) s)

/-- `ACK_HIGH`, `MEASURE 1, 85` (R125). -/
def execAckHigh (s : State) : Host.Outcome State Fault Refusal :=
  .next (runWait .high tmoAckHigh (fun _ => enterWait .bitLow) s)

/-- `BIT_LOW`, `MEASURE 0, 56` (R141). -/
def execBitLow (s : State) : Host.Outcome State Fault Refusal :=
  .next (runWait .low tmoBitLow (fun _ => enterWait .bitHigh) s)

/-- `BIT_HIGH`, `MEASURE 1, 75`, then `SHIFT`, after bit 39 `EVAL` (R142). -/
def execBitHigh (s : State) : Host.Outcome State Fault Refusal :=
  .next (runWait .high tmoBitHigh receiveBit s)

end Sys2Proof.Machine
end

