-- ==== Sys2Proof/Machine/Dispatch.lean ====
section
/-! DEFINITION. One arm per row of the opcode table, each a direct call of the row's meaning. -/

namespace Sys2Proof.Machine

def exec (i : Instr) (s : State) : Host.Outcome State Fault Refusal :=
  match i with
  | .startSampling d => Sys2Proof.Machine.execStartSampling d s
  | .ctrlNop d => Sys2Proof.Machine.execCtrlNop d s
  | .writeIgnoredW1 d => Sys2Proof.Machine.execWriteIgnoredW1 d s
  | .writeIgnoredW2 d => Sys2Proof.Machine.execWriteIgnoredW2 d s
  | .writeIgnoredW3 d => Sys2Proof.Machine.execWriteIgnoredW3 d s
  | .readCtrl d => Sys2Proof.Machine.execReadCtrl d s
  | .getStatus d => Sys2Proof.Machine.execGetStatus d s
  | .getHumidity d => Sys2Proof.Machine.execGetHumidity d s
  | .getTemperature d => Sys2Proof.Machine.execGetTemperature d s
  | .idle => Sys2Proof.Machine.execIdle s
  | .wakeLow => Sys2Proof.Machine.execWakeLow s
  | .wakeHigh => Sys2Proof.Machine.execWakeHigh s
  | .ackLow => Sys2Proof.Machine.execAckLow s
  | .ackHigh => Sys2Proof.Machine.execAckHigh s
  | .bitLow => Sys2Proof.Machine.execBitLow s
  | .bitHigh => Sys2Proof.Machine.execBitHigh s
  | .sleep => Sys2Proof.Machine.execSleep s
  | .frame h sgn m c => Sys2Proof.Machine.execFrame h sgn m c s
  | .lastNone => Sys2Proof.Machine.execLastNone s
  | .lastOk => Sys2Proof.Machine.execLastOk s
  | .lastTimeout => Sys2Proof.Machine.execLastTimeout s
  | .lastChecksum => Sys2Proof.Machine.execLastChecksum s
  | .statusWord l r => Sys2Proof.Machine.execStatusWord l r s

end Sys2Proof.Machine
end

