-- ==== Sys2Proof/Machine/Step.lean ====
section
/-! DEFINITION. One step of the machine: the surroundings' next event. A host transaction word is decoded and run; a
tick runs the operation of the phase `PH` names (44_sampler.md R187); a reset resets. -/

namespace Sys2Proof.Machine

/-- One step (00_scope.md R7, R8). -/
def step (s : State) : Host.Outcome State Fault Refusal :=
  match takeEvent s with
  | (.host w, s1) => exec (decodeHost w) s1
  | (.tick sample, s1) => exec (decodePhase (phaseCode s1.ph)) (beginTick sample s1)
  | (.reset, s1) => .next (applyReset s1)

/-- The state whose next step runs the table word (log entry 3); a word no decoder accepts changes nothing. -/
def State.withFetchWord (s : State) (nbits w : Nat) : State :=
  match tableFormat nbits w with
  | none => s
  | some f =>
    match decode f w with
    | .ok _ => placeCode f w s
    | .error _ => s

end Sys2Proof.Machine
end

