-- ==== Sys2Proof/Safety.lean ====
section
/-! DEFINITION. The terms claims use: the invariant of the block (10_state.md R37, with R23 to R25 and
60_exceptions.md R218), the host's duty (45_host_ops.md R191), and running the machine over listed events. -/

namespace Sys2Proof

open Machine

/-- The phases in which `EL` counts a wait (R25). -/
def isWait : Phase → Bool
  | .ackLow => true
  | .ackHigh => true
  | .bitLow => true
  | .bitHigh => true
  | .idle => false
  | .wakeLow => false
  | .wakeHigh => false
  | .sleep => false

/-- What holds at every tick and between ticks (R37), whatever the line and the hosts do. -/
structure Inv (s : State) : Prop where
  /-- The sequencer has left `IDLE` only if the sampler was launched (R21, R37.1). -/
  launched : s.ph ≠ .idle → s.run = true
  /-- In `IDLE` everything but `RUN` is as reset left it (R37.1, R38). -/
  fresh : s.ph = .idle →
    s.last = .noneYet ∧ s.humRaw = 0 ∧ s.tmpSign = false ∧ s.tmpMag = 0 ∧ s.raw = 0 ∧ s.bitIdx = 0 ∧
      s.dly = 0 ∧ s.el = 0
  /-- The delay counter's bounds (R37.3). -/
  wakeLowDelay : s.ph = .wakeLow → s.dly.toNat ≤ 2999
  wakeHighDelay : s.ph = .wakeHigh → s.dly.toNat ≤ 24
  sleepDelay : s.ph = .sleep → s.dly.toNat ≤ 3999999
  /-- The elapsed count's bounds (R37.4, R37.5, R25). -/
  ackElapsed : s.ph = .ackLow ∨ s.ph = .ackHigh → s.el.toNat ≤ 85
  bitLowElapsed : s.ph = .bitLow → s.el.toNat ≤ 56
  bitHighElapsed : s.ph = .bitHigh → s.el.toNat ≤ 75
  chainedElapsed : s.ph = .ackHigh ∨ s.ph = .bitLow ∨ s.ph = .bitHigh → 1 ≤ s.el.toNat
  elapsedBound : s.el.toNat ≤ 85
  /-- The bit index never passes 39 (R23), and only that many bits have been shifted in (R37.6). -/
  bitIndexBound : s.bitIdx.toNat ≤ 39
  partialFrame : s.ph = .bitLow ∨ s.ph = .bitHigh → s.raw.toNat < 2 ^ s.bitIdx.toNat
  /-- Before the first bit of an attempt nothing has been received (R120, R126). -/
  noBitYet : s.ph = .wakeLow ∨ s.ph = .wakeHigh ∨ s.ph = .ackLow ∨ s.ph = .ackHigh →
    s.raw = 0 ∧ s.bitIdx = 0
  /-- In the pause an attempt has finished, and `LAST` says how (R29, R37.8). -/
  finished : s.ph = .sleep → s.last ≠ .noneYet
  committed : s.ph = .sleep → s.last = .ok →
    s.bitIdx = 39 ∧ frameValid s.raw = true ∧ s.humRaw = humField s.raw ∧ s.tmpSign = signField s.raw ∧
      s.tmpMag = magField s.raw
  mismatched : s.ph = .sleep → s.last = .checksum → s.bitIdx = 39 ∧ frameValid s.raw = false
  abandoned : s.ph = .sleep → s.last = .timeout → s.raw.toNat < 2 ^ s.bitIdx.toNat
  /-- An event is high exactly in the interval after the tick that ended an attempt, and it reports the status
  that `LAST` holds (R218, R182). -/
  strobeTime : s.strobe.isSome = true ↔ s.ph = .sleep ∧ s.dly = 0
  strobeKind : ∀ e, s.strobe = some e → s.last = strobeStatus e

/-- The hosts' duty over listed events, from a given `RUN` (R191, 70_reset_and_hazards.md R245): no
`START_SAMPLING` once the sampler is launched, afresh after each reset. -/
def dutyKept : Bool → List Event → Bool
  | _, [] => true
  | run, .tick _ :: rest => dutyKept run rest
  | _, .reset :: rest => dutyKept false rest
  | run, .host w :: rest =>
    if (w.extractLsb' 32 3 == 0b100#3) && w.getLsbD 0 then !run && dutyKept true rest
    else dutyKept run rest

/-- The state with exactly these events listed. -/
def withEvents (s : State) (es : List Event) : State := { s with env := es }

/-- The states agree on everything the sequencer writes (00_scope.md R8): all but `RUN`, the host port and the
surroundings' fields. -/
def sameSequencer (s t : State) : Prop :=
  s.ph = t.ph ∧ s.bitIdx = t.bitIdx ∧ s.dly = t.dly ∧ s.el = t.el ∧ s.raw = t.raw ∧
    s.humRaw = t.humRaw ∧ s.tmpSign = t.tmpSign ∧ s.tmpMag = t.tmpMag ∧ s.last = t.last ∧
    s.pinIn = t.pinIn ∧ s.strobe = t.strobe ∧ s.tickNo = t.tickNo

/-- After `k` steps the machine has not stopped and its state has the property. -/
def reaches (k : Nat) (s : State) (P : State → Prop) : Prop :=
  ∃ t, Host.Core.run Sys2Proof.core k s = .next t ∧ P t

/-- The level and the bound wired for a wait phase (40_timing_unit.md R100). -/
def waitOperands : Phase → Option (Level × Nat)
  | .ackLow => some (.low, 85)
  | .ackHigh => some (.high, 85)
  | .bitLow => some (.low, 56)
  | .bitHigh => some (.high, 75)
  | .idle => none
  | .wakeLow => none
  | .wakeHigh => none
  | .sleep => none

/-- The line over a whole frame (30_encoding.md R70): the acknowledgement low and high, for each bit its low and its
high segment, and the low sample that ends the last one. Each pair is a bit's two run lengths. -/
def frameWave (al ah : Nat) (segs : List (Nat × Nat)) : List Level :=
  List.replicate al .low ++ List.replicate ah .high ++
    segs.flatMap (fun p => List.replicate p.1 .low ++ List.replicate p.2 .high) ++ [.low]

/-- The sum of the 82 run lengths of a frame (70_reset_and_hazards.md R255). -/
def frameTicks (al ah : Nat) (segs : List (Nat × Nat)) : Nat :=
  al + ah + (segs.map (fun p => p.1 + p.2)).sum

/-- What 43_evaluate.md R160 makes of a state when the completed Raw Register is `raw`, written with its bytes as numbers:
humidity, sign, magnitude and sum, then the commit of R164 or the `ChecksumError` of R165. -/
def evaluated (raw : BitVec 40) (s : State) : State :=
  let b := fun i => raw.toNat / 256 ^ (4 - i) % 256
  if (b 0 + b 1 + b 2 + b 3) &&& 0xFF = b 4 then
    { s with
      raw := raw, humRaw := BitVec.ofNat 16 ((b 0 <<< 8) ||| b 1), tmpSign := (b 2).testBit 7,
      tmpMag := BitVec.ofNat 15 (((b 2 &&& 0x7F) <<< 8) ||| b 3), last := .ok,
      strobe := some .ok, ph := .sleep, dly := 0 }
  else { s with raw := raw, last := .checksum, strobe := some .checksum, ph := .sleep, dly := 0 }

/-- The magnitude a finite binary32 pattern stands for, times `2 ^ 149` (10_state.md R36): exponent in bits 30:23,
fraction in 22:0. -/
def binary32Scaled (w : Word) : Nat :=
  let e := (w.extractLsb' 23 8).toNat
  let f := (w.extractLsb' 0 23).toNat
  if e = 0 then f else (2 ^ 23 + f) * 2 ^ (e - 1)

end Sys2Proof
end

