-- ==== Sys2Proof/Certificates/Slice0/Obligations.lean ====
section
/-! DEFINITION. The statements for the provers: what the spec's numbered rules say an operation or the machine does. -/

open Sys2Proof Sys2Proof.Machine

/-! ## Host transactions (45_host_ops.md) -/

/-- R190: `START_SAMPLING` with `RUN = 0` sets `RUN` and nothing else; the first attempt starts at the next tick. -/
def Obligations.StartSamplingSetsRunOnly : Prop :=
  (∀ (d : BitVec 31) (s : State), s.run = false →
    exec (.startSampling d) s = .next { s with run := true }) ∧
  (∀ l : Level, reaches 2 (withEvents State.reset [.host 0x400000001#35, .tick l])
    (fun t => t.run = true ∧ t.ph = .wakeLow ∧ t.dly = 0 ∧ pinOe t.ph = true ∧ pinOut t.ph = .low))

/-- R191: a second `START_SAMPLING` is a fault, in every phase. -/
def Obligations.SecondStartSamplingFaults : Prop :=
  ∀ (d : BitVec 31) (s : State), s.run = true → exec (.startSampling d) s = .fault .secondStart

/-- R192: `GET_TEMPERATURE` returns the rendering of the committed temperature and writes no state; with the rule's
corner cases and example: until the next commit it keeps returning the same word. `hRdata` is the model's home of the
returned word, the port's `h_rdata` (log entry 4). -/
def Obligations.GetTemperatureReturnsRendering : Prop :=
  (∀ (d : BitVec 32) (s : State),
    exec (.getTemperature d) s = .next { s with hRdata := f32 s.tmpSign s.tmpMag.toNat 10 }) ∧
  f32 State.reset.tmpSign State.reset.tmpMag.toNat 10 = 0x00000000#32 ∧
  f32 true 0 10 = 0x80000000#32 ∧ f32 false 257 10 = 0x41CD999A#32 ∧
  (∀ (s s1 t : State) (l : Level), takeEvent s = (.tick l, s1) → step s = .next t → t.strobe ≠ some .ok →
    f32 t.tmpSign t.tmpMag.toNat 10 = f32 s.tmpSign s.tmpMag.toNat 10)

/-- R193: `GET_HUMIDITY` returns the rendering of the committed humidity and writes no state; it is never negative,
and until the next commit it stays the same. -/
def Obligations.GetHumidityReturnsRendering : Prop :=
  (∀ (d : BitVec 32) (s : State),
    exec (.getHumidity d) s = .next { s with hRdata := f32 false s.humRaw.toNat 10 }) ∧
  f32 false State.reset.humRaw.toNat 10 = 0x00000000#32 ∧ f32 false 400 10 = 0x42200000#32 ∧
  (∀ n : Nat, n < 65536 → (f32 false n 10).getLsbD 31 = false) ∧
  (∀ (s s1 t : State) (l : Level), takeEvent s = (.tick l, s1) → step s = .next t → t.strobe ≠ some .ok →
    f32 false t.humRaw.toNat 10 = f32 false s.humRaw.toNat 10)

/-- R194: `GET_STATUS` returns `zext_32({LAST[1:0], RUN})`, and clears nothing. `hRdata` is the model's
home of the returned word (log entry 4). -/
def Obligations.GetStatusReturnsStatusWord : Prop :=
  ∀ (d : BitVec 32) (s : State),
    exec (.getStatus d) s =
      .next { s with hRdata := BitVec.ofNat 32 (2 * (statusCode s.last).toNat + if s.run then 1 else 0) }

/-- R196: the other transactions have no effect, and `READ_CTRL` returns zero. `hRdata` is the model's home of
the returned word, kept there until the next read (log entry 4). -/
def Obligations.OtherTransactionsHaveNoEffect : Prop :=
  (∀ (d : BitVec 31) (s : State), exec (.ctrlNop d) s = .next s) ∧
  (∀ (d : BitVec 32) (s : State), exec (.writeIgnoredW1 d) s = .next s) ∧
  (∀ (d : BitVec 32) (s : State), exec (.writeIgnoredW2 d) s = .next s) ∧
  (∀ (d : BitVec 32) (s : State), exec (.writeIgnoredW3 d) s = .next s) ∧
  (∀ (d : BitVec 32) (s : State), exec (.readCtrl d) s = .next { s with hRdata := 0x00000000#32 })

/-- Whatever 35-bit word a host presents, a step of it leaves the sequencer, the Reading, `LAST` and the pin alone:
only `RUN` and the returned word may change, and `RUN` only from 0 to 1 (R22, R186, R197). That the
returned word is kept where no read completes is the model's choice (log entry 4). -/
def Obligations.HostTransactionFrame : Prop :=
  ∀ (w : BitVec 35) (s t : State), exec (decodeHost w) s = .next t →
    t = { s with run := t.run, hRdata := t.hRdata } ∧ (s.run = true → t.run = true) ∧
      (t.run ≠ s.run → t.hRdata = s.hRdata ∧ ∃ d, decodeHost w = .startSampling d)

/-- The host window as a memory: a read transaction of any word returns the window's word, and the window reads as
20_memory.md R53 lays it out. `hRdata` is the model's home of the returned word (log entry 4). -/
def Obligations.WindowReadsReturnTheirWord : Prop :=
  ∀ (idx : BitVec 2) (d : BitVec 32) (s : State),
    exec (decodeHost (hostWord 0#1 idx d)) s = .next { s with hRdata := windowWord idx s } ∧
    windowWord 0 s = 0 ∧ windowWord 1 s = statusBits s.last s.run ∧
    windowWord 2 s = f32 false s.humRaw.toNat 10 ∧ windowWord 3 s = f32 s.tmpSign s.tmpMag.toNat 10

/-! ## The sequencer's phases -/

/-- R181: `IDLE` does nothing until `RUN = 1`; then the attempt starts. -/
def Obligations.IdleWaitsForRun : Prop :=
  ∀ s : State,
    exec .idle s =
      .next (if s.run = true then { s with ph := .wakeLow, dly := 0, raw := 0, bitIdx := 0 } else s)

/-- R121: `WAKE_LOW` drives the pin low for exactly 3000 tick intervals, whatever the line does; a reset abandons it. -/
def Obligations.WakeLowDrivesLow3000Ticks : Prop :=
  (pinOe .wakeLow = true ∧ pinOut .wakeLow = .low) ∧
  (∀ s : State,
    exec .wakeLow s =
      .next (if s.dly.toNat = 2999 then { s with ph := .wakeHigh, dly := 0 } else { s with dly := s.dly + 1 })) ∧
  (∀ (s : State) (samples : List Level) (rest : List Event),
    s.ph = .wakeLow → s.dly = 0 → samples.length = 3000 → s.env = samples.map Event.tick ++ rest →
    (∀ k < 3000, reaches k s (fun t => t.ph = .wakeLow ∧ t.dly.toNat = k)) ∧
    reaches 3000 s (fun t => t.ph = .wakeHigh ∧ t.dly = 0 ∧ t.env = rest)) ∧
  (∀ (s : State) (rest : List Event), s.ph = .wakeLow → s.env = .reset :: rest →
    reaches 1 s (fun t => t.ph = .idle ∧ pinOe t.ph = false))

/-- R122: `WAKE_HIGH` drives the pin high for exactly 25 tick intervals and then releases it, `ACK_LOW` starting fresh. -/
def Obligations.WakeHighDrivesHigh25Ticks : Prop :=
  (pinOe .wakeHigh = true ∧ pinOut .wakeHigh = .high ∧ pinOe .ackLow = false) ∧
  (∀ s : State,
    exec .wakeHigh s =
      .next (if s.dly.toNat = 24 then { s with ph := .ackLow, dly := 0, el := 0 }
        else { s with dly := s.dly + 1 })) ∧
  (∀ (s : State) (samples : List Level) (rest : List Event),
    s.ph = .wakeHigh → s.dly = 0 → samples.length = 25 → s.env = samples.map Event.tick ++ rest →
    (∀ k < 25, reaches k s (fun t => t.ph = .wakeHigh ∧ t.dly.toNat = k)) ∧
    reaches 25 s (fun t => t.ph = .ackLow ∧ t.dly = 0 ∧ t.el = 0 ∧ t.env = rest))

/-- R124: one tick of `ACK_LOW`, and its timeout at the 86th low sample, the 86th tick after the release. -/
def Obligations.AckLowMeasuresLowUpTo85 : Prop :=
  (∀ s : State,
    exec .ackLow s =
      .next (if s.pinIn ≠ .low then { s with ph := .ackHigh, el := 1 }
        else if 85 < s.el.toNat + 1 then
          { s with last := .timeout, strobe := some .timeout, ph := .sleep, dly := 0 }
        else { s with el := s.el + 1 })) ∧
  (∀ (s : State) (rest : List Event), s.ph = .ackLow → s.el = 0 →
    s.env = List.replicate 86 (.tick .low) ++ rest →
    (∀ k < 86, reaches k s (fun t => t.ph = .ackLow ∧ t.el.toNat = k)) ∧
    reaches 86 s (fun t => t.ph = .sleep ∧ t.dly = 0 ∧ t.last = .timeout ∧ t.strobe = some .timeout))

/-- R125: one tick of `ACK_HIGH`, and its timeout at the 85th further high sample; with no sensor and a pulled-up line
that is the 86th sample after the release. -/
def Obligations.AckHighMeasuresHighUpTo85 : Prop :=
  (∀ s : State,
    exec .ackHigh s =
      .next (if s.pinIn ≠ .high then { s with ph := .bitLow, el := 1 }
        else if 85 < s.el.toNat + 1 then
          { s with last := .timeout, strobe := some .timeout, ph := .sleep, dly := 0 }
        else { s with el := s.el + 1 })) ∧
  (∀ (s : State) (rest : List Event), s.ph = .ackHigh → s.el = 1 →
    s.env = List.replicate 85 (.tick .high) ++ rest →
    (∀ k < 85, reaches k s (fun t => t.ph = .ackHigh ∧ t.el.toNat = k + 1)) ∧
    reaches 85 s (fun t => t.ph = .sleep ∧ t.dly = 0 ∧ t.last = .timeout ∧ t.strobe = some .timeout)) ∧
  (∀ (s : State) (rest : List Event), s.ph = .ackLow → s.el = 0 →
    s.env = List.replicate 86 (.tick .high) ++ rest →
    reaches 1 s (fun t => t.ph = .ackHigh ∧ t.el = 1) ∧
    reaches 86 s (fun t => t.ph = .sleep ∧ t.dly = 0 ∧ t.last = .timeout ∧ t.strobe = some .timeout))

/-- R141: one tick of `BIT_LOW`, and its timeout at the 56th further low sample. -/
def Obligations.BitLowMeasuresLowUpTo56 : Prop :=
  (∀ s : State,
    exec .bitLow s =
      .next (if s.pinIn ≠ .low then { s with ph := .bitHigh, el := 1 }
        else if 56 < s.el.toNat + 1 then
          { s with last := .timeout, strobe := some .timeout, ph := .sleep, dly := 0 }
        else { s with el := s.el + 1 })) ∧
  (∀ (s : State) (rest : List Event), s.ph = .bitLow → s.el = 1 →
    s.env = List.replicate 56 (.tick .low) ++ rest →
    (∀ k < 56, reaches k s (fun t => t.ph = .bitLow ∧ t.el.toNat = k + 1)) ∧
    reaches 56 s (fun t => t.ph = .sleep ∧ t.dly = 0 ∧ t.last = .timeout ∧ t.strobe = some .timeout))

/-- R142 to R145, R160: one tick of `BIT_HIGH`. A low sample gives the bit: it is 1 when the count is over 40, enters at
`RAW[0]`, and after bit 39 the new Raw Register is evaluated in the same tick, as R160 says (`evaluated`). Otherwise the
wait counts on, or times out at the 75th further high sample. -/
def Obligations.BitHighMeasuresHighUpTo75 : Prop :=
  (∀ s : State, s.pinIn = .low →
    let raw' : BitVec 40 := BitVec.ofNat 40 (s.raw.toNat * 2 + if 40 < s.el.toNat then 1 else 0)
    (s.bitIdx.toNat = 39 → exec .bitHigh s = .next (evaluated raw' s)) ∧
    (s.bitIdx.toNat ≠ 39 →
      exec .bitHigh s =
        .next { s with raw := raw', bitIdx := s.bitIdx + 1, ph := .bitLow, el := 1 })) ∧
  (∀ s : State, s.pinIn = .high →
    exec .bitHigh s =
      .next (if 75 < s.el.toNat + 1 then
          { s with last := .timeout, strobe := some .timeout, ph := .sleep, dly := 0 }
        else { s with el := s.el + 1 })) ∧
  (∀ (s : State) (rest : List Event), s.ph = .bitHigh → s.el = 1 →
    s.env = List.replicate 75 (.tick .high) ++ rest →
    (∀ k < 75, reaches k s (fun t => t.ph = .bitHigh ∧ t.el.toNat = k + 1)) ∧
    reaches 75 s (fun t => t.ph = .sleep ∧ t.dly = 0 ∧ t.last = .timeout ∧ t.strobe = some .timeout))

/-- R183: `SLEEP` pauses exactly 4 000 000 ticks, pin released, whatever the line does, and then the next attempt
starts. -/
def Obligations.SleepPauses4000000Ticks : Prop :=
  pinOe .sleep = false ∧
  (∀ s : State,
    exec .sleep s =
      .next (if s.dly.toNat = 3999999 then { s with ph := .wakeLow, dly := 0, raw := 0, bitIdx := 0 }
        else { s with dly := s.dly + 1 })) ∧
  (∀ (s : State) (samples : List Level) (rest : List Event),
    s.ph = .sleep → s.dly = 0 → samples.length = 4000000 → s.env = samples.map Event.tick ++ rest →
    (∀ k < 4000000, reaches k s (fun t => t.ph = .sleep ∧ t.dly.toNat = k ∧ t.last = s.last)) ∧
    reaches 4000000 s
      (fun t => t.ph = .wakeLow ∧ t.dly = 0 ∧ t.raw = 0 ∧ t.bitIdx = 0 ∧ t.last = s.last ∧ t.env = rest))

/-! ## Evaluation (43_evaluate.md) -/

/-- The row `FRAME`: a completed frame is evaluated as R160 to R165 say, whatever its four fields are. That the row stands
for this part of the tick is the model's choice (log entry 6); the tick itself is `BitHighMeasuresHighUpTo75`. -/
def Obligations.FrameIsEvaluated : Prop :=
  ∀ (h : BitVec 16) (sgn : BitVec 1) (m : BitVec 15) (c : BitVec 8) (s : State),
    exec (.frame h sgn m c) s = .next (evaluated (h ++ sgn ++ m ++ c) s)

/-- The rows of the status codes do what the loop does with each Decode Status (44_sampler.md R182): the model's
reading of those rows is log entry 6. -/
def Obligations.StatusRowsEndTheAttempt : Prop :=
  (∀ s : State,
    exec .lastOk s =
      .next { s with
        humRaw := s.raw.extractLsb' 24 16, tmpSign := s.raw.getLsbD 23, tmpMag := s.raw.extractLsb' 8 15,
        last := .ok, strobe := some .ok, ph := .sleep, dly := 0 }) ∧
  (∀ s : State,
    exec .lastTimeout s =
      .next { s with last := .timeout, strobe := some .timeout, ph := .sleep, dly := 0 }) ∧
  (∀ s : State,
    exec .lastChecksum s =
      .next { s with last := .checksum, strobe := some .checksum, ph := .sleep, dly := 0 }) ∧
  (∀ s : State, exec .lastNone s = .next { s with last := .noneYet })

/-- The row of the `STATUS` word completes a host read with its own bits (30_encoding.md R77; log entry 6). -/
def Obligations.StatusWordRowReturnsItsBits : Prop :=
  ∀ (l : Status) (r : Bool) (s : State),
    exec (.statusWord l r) s =
      .next { s with hRdata := BitVec.ofNat 32 (2 * (statusCode l).toNat + if r then 1 else 0) }

/-- R74: for every payload exactly one checksum byte makes the frame valid. -/
def Obligations.OneChecksumPerPayload : Prop :=
  ∀ (h : BitVec 16) (sgn : BitVec 1) (m : BitVec 15),
    ∃ c : BitVec 8, frameValid (frameBits h sgn m c) = true ∧
      ∀ c', frameValid (frameBits h sgn m c') = true → c' = c

/-- R52: the fields of the Raw Register are its bytes, high byte first. -/
def Obligations.FieldsAreBigEndianBytes : Prop :=
  ∀ raw : BitVec 40,
    raw.toNat = ((((rawByte raw 0).toNat * 256 + (rawByte raw 1).toNat) * 256 + (rawByte raw 2).toNat) * 256 +
      (rawByte raw 3).toNat) * 256 + (rawByte raw 4).toNat ∧
    (humField raw).toNat = (rawByte raw 0).toNat * 256 + (rawByte raw 1).toNat ∧
    (if signField raw then 2 ^ 15 else 0) + (magField raw).toNat =
      (rawByte raw 2).toNat * 256 + (rawByte raw 3).toNat ∧
    checkField raw = rawByte raw 4

/-! ## The getters' rendering (10_state.md R36) -/

/-- R36: the rendering of every Reading is a binary32 value nearest to `n / 10`, ties to even, with the sign bit as
given. Distances are compared after multiplying by `10 * 2 ^ 149`. -/
def Obligations.RenderingIsNearestBinary32 : Prop :=
  ∀ (neg : Bool) (n : Nat), n < 65536 →
    let w := f32 neg n 10
    let dist := fun x : Word => ((10 * binary32Scaled x : Int) - n * 2 ^ 149).natAbs
    w.getLsbD 31 = neg ∧ (w.extractLsb' 23 8).toNat < 255 ∧
    ∀ x : Word, (x.extractLsb' 23 8).toNat < 255 →
      dist w ≤ dist x ∧ (dist x = dist w → binary32Scaled x ≠ binary32Scaled w → w.getLsbD 0 = false)

/-- The examples of R36 and of the test vectors V-E1 to V-E7 (95_test_vectors.md). -/
def Obligations.RenderingExamples : Prop :=
  f32 false 0 10 = 0x00000000#32 ∧ f32 true 0 10 = 0x80000000#32 ∧ f32 false 400 10 = 0x42200000#32 ∧
  f32 false 257 10 = 0x41CD999A#32 ∧ f32 true 257 10 = 0xC1CD999A#32 ∧ f32 true 400 10 = 0xC2200000#32 ∧
  f32 false 65535 10 = 0x45CCCC00#32 ∧ f32 true 32767 10 = 0xC54CCB33#32 ∧
  f32 false 1 10 = 0x3DCCCCCD#32 ∧ f32 false 1000 10 = 0x42C80000#32

/-! ## Encodings (30_encoding.md) -/

/-- R76 and R78: the status codes and the phase codes, all used. -/
def Obligations.CodesAreAsTabled : Prop :=
  ((statusCode .noneYet).toNat = 0 ∧ (statusCode .ok).toNat = 1 ∧ (statusCode .timeout).toNat = 2 ∧
    (statusCode .checksum).toNat = 3) ∧
  ((phaseCode .idle).toNat = 0 ∧ (phaseCode .wakeLow).toNat = 1 ∧ (phaseCode .wakeHigh).toNat = 2 ∧
    (phaseCode .ackLow).toNat = 3 ∧ (phaseCode .ackHigh).toNat = 4 ∧ (phaseCode .bitLow).toNat = 5 ∧
    (phaseCode .bitHigh).toNat = 6 ∧ (phaseCode .sleep).toNat = 7) ∧
  (∀ c : BitVec 2, statusCode (statusOfCode c) = c) ∧ (∀ c : BitVec 3, phaseCode (phaseOfCode c) = c)

/-- A few words written out from the spec's encodings decode to the instruction they stand for. -/
def Obligations.SampleWordsDecode : Prop :=
  decode .host35 0x400000001 = .ok (.startSampling 0) ∧
  decode .host35 0x4FFFFFFFE = .ok (.ctrlNop 0x7FFFFFFF#31) ∧
  decode .host35 0x642C80000 = .ok (.writeIgnoredW2 0x42C80000#32) ∧
  decode .host35 0x100000000 = .ok (.getStatus 0) ∧
  decode .host35 0x300000000 = .ok (.getTemperature 0) ∧
  decode .phase3 0b110 = .ok .bitHigh ∧
  decode .frame40 0x0190810113 = .ok (.frame 400 1 257 0x13) ∧
  decode .last2 0b10 = .ok .lastTimeout ∧
  decode .word32 0x00000007 = .ok (.statusWord .checksum true)

/-- Every well-formed instruction, with every operand at every value, is what its code decodes to. -/
def Obligations.DecodeOfEncodeIsIdentity : Prop :=
  ∀ i : Instr, i.wellFormed = true → decode (instrFormat i) (encode i) = .ok i

/-- Every code a space accepts has one meaning: encoding what it decodes to gives the code back. -/
def Obligations.EncodeOfDecodeIsIdentity : Prop :=
  ∀ (f : Format) (n : Nat) (i : Instr), decode f n = .ok i → instrFormat i = f ∧ encode i = n

/-- R82: every one of the 35-bit words is of exactly one row of the table, the row of the instruction it decodes to. -/
def Obligations.EveryHostWordMatchesOneRow : Prop :=
  ∀ w : BitVec 35,
    (hostRows.filter (fun r => rowMatches r w.toNat)).map OpcodeRow.mnemonic = [instrMnemonic (decodeHost w)]

/-- A number is refused exactly when it does not fit its space or sets a zero bit of the `STATUS` word. That the decoder
refuses such a number, and the two reasons, are the model's own (log entry 15, DEDUCED from the widths and from R77:
"Bits 31:3 read 0"); the spec names no refusal. -/
def Obligations.DecodeRefusesOnlyOutsideTheSpace : Prop :=
  ∀ (f : Format) (n : Nat),
    (decode f n = .error .tooWide ↔ 2 ^ formatWidth f ≤ n) ∧
    (decode f n = .error .statusBitsNotZero ↔ f = .word32 ∧ 8 ≤ n ∧ n < 2 ^ 32) ∧
    ((∃ i, decode f n = .ok i) ↔ n < 2 ^ formatWidth f ∧ (f = .word32 → n < 8))

/-- R51: of 40 bits shifted in, bit `k` in order of arrival is `RAW[39-k]`, which is bit `7 - (k mod 8)` of byte
`k div 8`. -/
def Obligations.PackedBitsLieMsbFirst : Prop :=
  ∀ bits : List Bool, bits.length = 40 → ∀ k : Nat, k < 40 →
    some ((packBits bits).getLsbD (39 - k)) = bits[k]? ∧
    some ((rawByte (packBits bits) (k / 8)).getLsbD (7 - k % 8)) = bits[k]?

/-! ## The timing unit (40_timing_unit.md) -/

/-- R101: with `r` the run length of the level from tick `n0`, the result is `Done(r)` at tick `n0 + r` when `r` is within
the bound and `Timeout` at tick `n0 + T` otherwise, and no tick past `n0 + T` is looked at. -/
def Obligations.MeasureGivesRunLength : Prop :=
  ∀ (line : Nat → Level) (n0 : Nat) (L : Level) (T k0 : Nat), k0 ≤ T →
    (∀ r, k0 ≤ r → r ≤ T → (∀ j < r, line (n0 + j) = L) → line (n0 + r) ≠ L →
      measure line n0 L T k0 = (.done r, n0 + r)) ∧
    ((∀ j ≤ T, line (n0 + j) = L) → measure line n0 L T k0 = (.timeout, n0 + T)) ∧
    (∀ line' : Nat → Level, (∀ j, n0 + k0 ≤ j → j ≤ n0 + T → line' j = line j) →
      measure line' n0 L T k0 = measure line n0 L T k0)

/-- R102 is R101 unrolled: a wait phase entered with `EL = k0` gives, at the very tick `measure` says, the result it
says, and stays in the phase until then. -/
def Obligations.WaitPhaseComputesMeasure : Prop :=
  ∀ (p : Phase) (L : Level) (T k0 n0 : Nat) (line : Nat → Level) (s : State) (rest : List Event),
    waitOperands p = some (L, T) → s.ph = p → s.el.toNat = k0 → k0 ≤ T →
    s.env = (List.range (T + 1 - k0)).map (fun j => Event.tick (line (n0 + k0 + j))) ++ rest →
    let m := measure line n0 L T k0
    (∀ k, n0 + k0 + k ≤ m.2 → reaches k s (fun t => t.ph = p ∧ t.el.toNat = k0 + k)) ∧
    n0 + k0 ≤ m.2 ∧ m.2 ≤ n0 + T ∧
    reaches (m.2 + 1 - (n0 + k0)) s (fun t =>
      match m.1 with
      | .timeout => t.ph = .sleep ∧ t.last = .timeout ∧ t.strobe = some .timeout ∧ t.raw = s.raw
      | .done r =>
        t.strobe ≠ some .timeout ∧
        match p with
        | .ackLow => t.ph = .ackHigh ∧ t.el = 1 ∧ t.raw = s.raw
        | .ackHigh => t.ph = .bitLow ∧ t.el = 1 ∧ t.raw = s.raw
        | .bitLow => t.ph = .bitHigh ∧ t.el = 1 ∧ t.raw = s.raw
        | _ => t.raw = shiftIn s.raw (decide (40 < r)) ∧
            (s.bitIdx.toNat = 39 → t.ph = .sleep) ∧ (s.bitIdx.toNat ≠ 39 → t.ph = .bitLow ∧ t.el = 1))

/-! ## One step of the machine -/

/-- A step runs the instruction the presented word, or the phase, decodes to; around it a step takes the event, and a
tick samples the line, lowers the event outputs and is counted. The list of events and the free ones are the model's
(log entry 1), the event outputs and the tick number its fields (log entry 9). -/
def Obligations.StepRunsTheDecodedInstruction : Prop :=
  (∀ (s : State) (e : Event) (rest : List Event), s.env = e :: rest →
    takeEvent s = (e, { s with env := rest })) ∧
  (∀ s : State, s.env = [] → takeEvent s = (Config.freeEvent s.draws, { s with draws := s.draws + 1 })) ∧
  (∀ (s s1 : State) (w : BitVec 35) (i : Instr), takeEvent s = (.host w, s1) →
    decode .host35 w.toNat = .ok i → step s = exec i s1) ∧
  (∀ (s s1 : State) (l : Level) (i : Instr), takeEvent s = (.tick l, s1) →
    decode .phase3 (phaseCode s1.ph).toNat = .ok i →
    step s = exec i { s1 with pinIn := l, strobe := none, tickNo := s1.tickNo + 1 })

/-- A placed table word is what the very next step runs: a transaction word on the state as it is, a phase code at a
tick of that phase with the line as last sampled (log entry 3). -/
def Obligations.PlacedWordRunsNext : Prop :=
  (∀ (s : State) (w : BitVec 35) (i : Instr), decodeTableWord 35 w.toNat = some i →
    step (s.withFetchWord 35 w.toNat) = exec i s) ∧
  (∀ (s : State) (c : BitVec 3) (i : Instr), decodeTableWord 3 c.toNat = some i →
    step (s.withFetchWord 3 c.toNat) =
      exec i { s with ph := phaseOfCode c, strobe := none, tickNo := s.tickNo + 1 })

/-- R240: a reset, in any state and any phase, gives every state element its reset value (R38) at once, and the ticks are
counted from 0 again. That the reset is one event, and that it lowers the event outputs (`strobe`), are the model's
reading (log entries 8 and 9, DEDUCED). -/
def Obligations.ResetRestoresEveryElement : Prop :=
  ∀ s s1 : State, takeEvent s = (.reset, s1) → ∃ t, step s = .next t ∧
    t.humRaw = 0 ∧ t.tmpSign = false ∧ t.tmpMag = 0 ∧ t.run = false ∧ t.ph = .idle ∧ t.last = .noneYet ∧
    t.bitIdx = 0 ∧ t.dly = 0 ∧ t.el = 0 ∧ t.raw = 0 ∧ pinOe t.ph = false ∧ t.strobe = none ∧ t.tickNo = 0

/-- R38: the reset table. -/
def Obligations.ResetStateIsAsTabled : Prop :=
  State.reset.humRaw = 0 ∧ State.reset.tmpSign = false ∧ State.reset.tmpMag = 0 ∧ State.reset.run = false ∧
  State.reset.ph = .idle ∧ State.reset.last = .noneYet ∧ State.reset.bitIdx = 0 ∧ State.reset.dly = 0 ∧
  State.reset.el = 0 ∧ State.reset.raw = 0 ∧ pinOe State.reset.ph = false

/-- R30: the pin drive is a function of the phase. What `pin_out` is where it is "don't care" is a free value. -/
def Obligations.PinDriveFollowsPhase : Prop :=
  (∀ p : Phase, pinOe p = true ↔ p = .wakeLow ∨ p = .wakeHigh) ∧ pinOut .wakeLow = .low ∧ pinOut .wakeHigh = .high

/-! ## Rules of the whole machine -/

/-- The reset state meets the invariant (R37, R38). -/
def Obligations.ResetMeetsInvariant : Prop := Inv State.reset

/-- R37: every step, whatever event it takes, keeps the invariant. -/
def Obligations.StepKeepsInvariant : Prop :=
  ∀ s t : State, Inv s → step s = .next t → Inv t

/-- No step is refused, and the only fault is a second `START_SAMPLING` (R187, R221). -/
def Obligations.OnlySecondStartFaults : Prop :=
  ∀ s : State,
    (∃ t, step s = .next t) ∨
    (step s = .fault .secondStart ∧ s.run = true ∧
      ∃ w s1 d, takeEvent s = (.host w, s1) ∧ decodeHost w = .startSampling d)

/-- R245: while the hosts keep their duty, no listed event faults. -/
def Obligations.HostDutyAvoidsFault : Prop :=
  ∀ s : State, dutyKept s.run s.env = true → ∀ k ≤ s.env.length, reaches k s (fun _ => True)

/-- R57: the Reading changes only in a tick that emits `ev_ok`, and in such a tick all of it becomes the frame just
received. -/
def Obligations.ReadingReplacedOnlyByCommit : Prop :=
  ∀ (s s1 t : State) (e : Event), takeEvent s = (e, s1) → e ≠ .reset → step s = .next t →
    ((t.humRaw ≠ s.humRaw ∨ t.tmpSign ≠ s.tmpSign ∨ t.tmpMag ≠ s.tmpMag) →
      (∃ l, e = .tick l) ∧ t.strobe = some .ok) ∧
    (∀ l, e = .tick l → t.strobe = some .ok →
      t.last = .ok ∧ frameValid t.raw = true ∧ t.humRaw = humField t.raw ∧ t.tmpSign = signField t.raw ∧
        t.tmpMag = magField t.raw)

/-- R195: without a commit or a reset in the step, the getters' words do not change, and a word once returned is
changed by no tick. That the returned word stands in `hRdata` and is kept there between reads is the model's choice (log
entry 4, DESIGN CHOICE). -/
def Obligations.GettersChangeOnlyAtCommit : Prop :=
  ∀ (s s1 t : State) (e : Event), takeEvent s = (e, s1) → step s = .next t →
    (∀ l, e = .tick l → t.hRdata = s.hRdata ∧
      (t.strobe ≠ some .ok → windowWord 2 t = windowWord 2 s ∧ windowWord 3 t = windowWord 3 s)) ∧
    (∀ w, e = .host w → windowWord 2 t = windowWord 2 s ∧ windowWord 3 t = windowWord 3 s)

/-- R21: `RUN` is set by `START_SAMPLING` and by nothing else, cleared by reset and by nothing else, and while it is 0 the
sequencer stays in `IDLE`. -/
def Obligations.RunSetOnlyByStart : Prop :=
  (∀ (s s1 t : State) (e : Event), takeEvent s = (e, s1) → step s = .next t →
    (s.run = true → t.run = false → e = .reset) ∧ (e = .reset → t.run = false) ∧
    (s.run = false → (t.run = true ↔ ∃ w d, e = .host w ∧ decodeHost w = .startSampling d))) ∧
  (∀ s t : State, s.run = false → s.ph = .idle → step s = .next t → t.ph = .idle)

/-- R22: a tick moves `PH` only along the edges of the fixed sequence or into the pause, and nothing but a tick or a
reset moves it. -/
def Obligations.PhaseMovesAlongTheSequence : Prop :=
  ∀ (s s1 t : State) (e : Event), takeEvent s = (e, s1) → step s = .next t →
    (∀ w, e = .host w → t.ph = s.ph) ∧
    (∀ l, e = .tick l →
      t.ph = s.ph ∨
      (s.ph, t.ph) ∈ [(Phase.idle, Phase.wakeLow), (.wakeLow, .wakeHigh), (.wakeHigh, .ackLow),
        (.ackLow, .ackHigh), (.ackLow, .sleep), (.ackHigh, .bitLow), (.ackHigh, .sleep), (.bitLow, .bitHigh),
        (.bitLow, .sleep), (.bitHigh, .bitLow), (.bitHigh, .sleep), (.sleep, .wakeLow)])

/-- R218: a tick that ends an attempt emits one event, which `LAST` records; any other tick emits none and keeps
`LAST`; between ticks the outputs stand. That `LAST` records the event is R182, that `DLY` is 0 then is R215 and R160; that the
outputs are a field of State, and that a reset lowers it, is the model's reading (log entries 8 and 9, DEDUCED). -/
def Obligations.EventsMarkAttemptEnds : Prop :=
  ∀ (s s1 t : State) (e : Event), takeEvent s = (e, s1) → step s = .next t →
    (∀ w, e = .host w → t.strobe = s.strobe ∧ t.last = s.last) ∧
    (e = .reset → t.strobe = none) ∧
    (∀ l, e = .tick l →
      (t.strobe.isSome = true ↔ isWait s.ph = true ∧ t.ph = .sleep) ∧
      (∀ x, t.strobe = some x → t.last = strobeStatus x ∧ t.dly = 0) ∧
      (t.strobe = none → t.last = s.last))

/-- R215: a timeout writes `LAST`, the event, `PH` and `DLY`, and nothing else: the Reading, `RAW`, `BITIDX` and `EL` keep
their values. -/
def Obligations.TimeoutKeepsEverythingElse : Prop :=
  ∀ (s s1 t : State) (l : Level), takeEvent s = (.tick l, s1) → step s = .next t →
    t.strobe = some .timeout →
    t = { s1 with
      pinIn := l, tickNo := s1.tickNo + 1, strobe := some .timeout, last := .timeout, ph := .sleep, dly := 0 }

/-- In `IDLE`, `WAKE_LOW`, `WAKE_HIGH` and `SLEEP` the sample is not looked at (10_state.md R31): two ticks that differ in
the sample lead to states that differ in the capture register only. -/
def Obligations.SampleIgnoredOutsideWaits : Prop :=
  ∀ (s t t' : State) (l l' : Level) (rest : List Event), isWait s.ph = false →
    step (withEvents s (.tick l :: rest)) = .next t → step (withEvents s (.tick l' :: rest)) = .next t' →
    t' = { t with pinIn := l' }

/-- Nothing a host does, other than `START_SAMPLING`, changes what the sequencer does at the next tick (44_sampler.md
R186). -/
def Obligations.HostsDoNotDisturbTheSequencer : Prop :=
  ∀ (s : State) (w : BitVec 35) (l : Level) (rest : List Event), (∀ d, decodeHost w ≠ .startSampling d) →
    ∃ t t', Host.Core.run Sys2Proof.core 2 (withEvents s (.host w :: .tick l :: rest)) = .next t ∧
      Host.Core.run Sys2Proof.core 1 (withEvents s (.tick l :: rest)) = .next t' ∧
      sameSequencer t t' ∧ t.run = t'.run

/-! ## Whole bits, frames and attempts -/

/-- A bit's low and high segment within their bounds shift one bit in: 1 when the high segment is over 40 ticks, and the
next bit's low wait begins (42_bit_capture.md R140 to R145). -/
def Obligations.BitSegmentsShiftOneBit : Prop :=
  ∀ (s : State) (lo hi : Nat) (rest : List Event), s.ph = .bitLow → s.el = 1 → s.bitIdx.toNat < 39 →
    1 ≤ lo → lo ≤ 56 → 1 ≤ hi → hi ≤ 75 →
    s.env = (List.replicate (lo - 1) Level.low ++ List.replicate hi Level.high ++ [Level.low]).map Event.tick ++ rest →
    reaches (lo + hi) s (fun t =>
      t = { s with
        raw := shiftIn s.raw (decide (40 < hi)), bitIdx := s.bitIdx + 1, strobe := none, pinIn := .low,
        tickNo := s.tickNo + (lo + hi), env := rest })

/-- Whatever frame the line carries, with every segment within its bound, the attempt that starts at tick `a` ends at tick
`a + 3026 + (sum of the 82 run lengths)` with those 40 bits in `RAW`; a valid checksum commits them, any other keeps
the Reading (70_reset_and_hazards.md R255, 43_evaluate.md R160; 95_test_vectors.md V-S1, V-S2). -/
def Obligations.WholeFrameIsDecoded : Prop :=
  ∀ (s : State) (before : List Level) (al ah : Nat) (segs : List (Nat × Nat)) (rest : List Event),
    s.ph = .wakeLow → s.dly = 0 → s.raw = 0 → s.bitIdx = 0 → before.length = 3025 →
    al ≤ 85 → 1 ≤ ah → ah ≤ 85 → segs.length = 40 →
    (∀ p ∈ segs, 1 ≤ p.1 ∧ p.1 ≤ 56 ∧ 1 ≤ p.2 ∧ p.2 ≤ 75) →
    s.env = (before ++ frameWave al ah segs).map Event.tick ++ rest →
    let raw := packBits (segs.map (fun p => decide (40 < p.2)))
    reaches (3026 + frameTicks al ah segs) s (fun t =>
      t.ph = .sleep ∧ t.dly = 0 ∧ t.raw = raw ∧ t.bitIdx = 39 ∧ t.env = rest ∧
      (frameValid raw = true →
        t.last = .ok ∧ t.strobe = some .ok ∧ t.humRaw = humField raw ∧ t.tmpSign = signField raw ∧
          t.tmpMag = magField raw) ∧
      (frameValid raw = false →
        t.last = .checksum ∧ t.strobe = some .checksum ∧ t.humRaw = s.humRaw ∧ t.tmpSign = s.tmpSign ∧
          t.tmpMag = s.tmpMag))

/-- Once the sampler is launched, the attempt in progress (or the first one) ends within 8437 ticks, whatever the line
does (70_reset_and_hazards.md R258). -/
def Obligations.EveryAttemptEndsInTime : Prop :=
  ∀ (s : State) (samples : List Level) (rest : List Event), Inv s → s.run = true → s.ph ≠ .sleep →
    samples.length = 8437 → s.env = samples.map Event.tick ++ rest →
    ∃ k, 1 ≤ k ∧ k ≤ 8437 ∧ reaches k s (fun t => t.strobe.isSome = true)

/-- From the end of one attempt the next one ends within 4 008 436 ticks, whatever the line does (R258). -/
def Obligations.NextAttemptEndsInTime : Prop :=
  ∀ (s : State) (samples : List Level) (rest : List Event), Inv s → s.ph = .sleep →
    samples.length = 4008436 → s.env = samples.map Event.tick ++ rest →
    ∃ k, 1 ≤ k ∧ k ≤ 4008436 ∧ reaches k s (fun t => t.strobe.isSome = true)
end

