-- ==== Sys2Proof/Laws/Bits.lean ====
section
/-! SUPPORT. Bit by bit, what the encoder's concatenations, the frame and the shift hold. -/

namespace Sys2Proof.Laws

open Machine

/-- A bit of a transaction word (30_encoding.md R82). -/
theorem hostWord_getLsbD (we : BitVec 1) (addr : BitVec 2) (d : BitVec 32) (i : Nat) :
    (hostWord we addr d).getLsbD i =
      if i < 32 then d.getLsbD i else if i - 32 < 2 then addr.getLsbD (i - 32) else we.getLsbD (i - 32 - 2) := by
  show ((we ++ addr) ++ d : BitVec (1 + 2 + 32)).getLsbD i = _
  simp only [BitVec.getLsbD_append]

/-- A bit of write data made of 31 bits and `START` (R53). -/
theorem data_getLsbD (d : BitVec 31) (b : BitVec 1) (i : Nat) :
    (d ++ b : BitVec 32).getLsbD i = if i < 1 then b.getLsbD i else d.getLsbD (i - 1) := by
  show (d ++ b : BitVec (31 + 1)).getLsbD i = _
  simp only [BitVec.getLsbD_append]

/-- A bit of a frame (R72). -/
theorem frameBits_getLsbD (h : BitVec 16) (sgn : BitVec 1) (m : BitVec 15) (c : BitVec 8) (i : Nat) :
    (frameBits h sgn m c).getLsbD i =
      if i < 8 then c.getLsbD i
      else if i - 8 < 15 then m.getLsbD (i - 8)
      else if i - 8 - 15 < 1 then sgn.getLsbD (i - 8 - 15)
      else h.getLsbD (i - 8 - 15 - 1) := by
  show ((h ++ sgn ++ m) ++ c : BitVec (16 + 1 + 15 + 8)).getLsbD i = _
  simp only [BitVec.getLsbD_append]

/-- A bit of the Raw Register after a shift (42_bit_capture.md R144). -/
theorem shiftIn_getLsbD (raw : BitVec 40) (b : Bool) (i : Nat) :
    (shiftIn raw b).getLsbD i = if i = 0 then b else decide (i < 40) && raw.getLsbD (i - 1) := by
  show (raw.extractLsb' 0 39 ++ BitVec.ofBool b : BitVec (39 + 1)).getLsbD i = _
  rw [BitVec.getLsbD_append]
  by_cases h : i = 0
  · subst h; cases b <;> rfl
  · have h1 : ¬ i < 1 := by omega
    simp only [h1, h, if_false, BitVec.getLsbD_extractLsb', Nat.zero_add]
    congr 1
    simp only [decide_eq_decide]
    omega

/-- A shift doubles the register, drops its top bit and adds the new one. -/
theorem shiftIn_toNat (raw : BitVec 40) (b : Bool) :
    (shiftIn raw b).toNat = raw.toNat % 2 ^ 39 * 2 + b.toNat := by
  show (raw.extractLsb' 0 39 ++ BitVec.ofBool b : BitVec (39 + 1)).toNat = _
  rw [BitVec.toNat_append, BitVec.extractLsb'_toNat, Nat.shiftRight_zero, BitVec.toNat_ofBool,
    ← Nat.shiftLeft_add_eq_or_of_lt (by cases b <;> decide), Nat.shiftLeft_eq]

/-- A bit of the `STATUS` word (R77). -/
theorem statusBits_getLsbD (l : Status) (r : Bool) (i : Nat) :
    (statusBits l r).getLsbD i =
      if i = 0 then r else if i < 3 then (statusCode l).getLsbD (i - 1) else false := by
  show ((0#29 ++ statusCode l) ++ BitVec.ofBool r : BitVec (29 + 2 + 1)).getLsbD i = _
  rw [BitVec.getLsbD_append, BitVec.getLsbD_append]
  by_cases h : i = 0
  · subst h; cases r <;> rfl
  · have h1 : ¬ i < 1 := by omega
    simp only [h1, h, if_false]
    by_cases h2 : i < 3
    · have : i - 1 < 2 := by omega
      simp [h2, this]
    · have : ¬ i - 1 < 2 := by omega
      simp [h2, this]

end Sys2Proof.Laws
end

