-- ==== Sys2Proof/Laws/State.lean ====
section
/-! SUPPORT. What each named update of the state leaves in each field, one lemma a field, so that no later proof
unfolds a record update. -/

namespace Sys2Proof.Laws

open Machine

/-! ## `startAttempt` -/

@[simp] theorem startAttempt_run (s : State) : (startAttempt s).run = s.run := rfl
@[simp] theorem startAttempt_ph (s : State) : (startAttempt s).ph = .wakeLow := rfl
@[simp] theorem startAttempt_bitIdx (s : State) : (startAttempt s).bitIdx = 0 := rfl
@[simp] theorem startAttempt_dly (s : State) : (startAttempt s).dly = 0 := rfl
@[simp] theorem startAttempt_el (s : State) : (startAttempt s).el = s.el := rfl
@[simp] theorem startAttempt_raw (s : State) : (startAttempt s).raw = 0 := rfl
@[simp] theorem startAttempt_humRaw (s : State) : (startAttempt s).humRaw = s.humRaw := rfl
@[simp] theorem startAttempt_tmpSign (s : State) : (startAttempt s).tmpSign = s.tmpSign := rfl
@[simp] theorem startAttempt_tmpMag (s : State) : (startAttempt s).tmpMag = s.tmpMag := rfl
@[simp] theorem startAttempt_last (s : State) : (startAttempt s).last = s.last := rfl
@[simp] theorem startAttempt_pinIn (s : State) : (startAttempt s).pinIn = s.pinIn := rfl
@[simp] theorem startAttempt_strobe (s : State) : (startAttempt s).strobe = s.strobe := rfl
@[simp] theorem startAttempt_hRdata (s : State) : (startAttempt s).hRdata = s.hRdata := rfl
@[simp] theorem startAttempt_tickNo (s : State) : (startAttempt s).tickNo = s.tickNo := rfl
@[simp] theorem startAttempt_env (s : State) : (startAttempt s).env = s.env := rfl
@[simp] theorem startAttempt_draws (s : State) : (startAttempt s).draws = s.draws := rfl

/-! ## `endAttempt` -/

@[simp] theorem endAttempt_run (e : Strobe) (s : State) : (endAttempt e s).run = s.run := rfl
@[simp] theorem endAttempt_ph (e : Strobe) (s : State) : (endAttempt e s).ph = .sleep := rfl
@[simp] theorem endAttempt_bitIdx (e : Strobe) (s : State) : (endAttempt e s).bitIdx = s.bitIdx := rfl
@[simp] theorem endAttempt_dly (e : Strobe) (s : State) : (endAttempt e s).dly = 0 := rfl
@[simp] theorem endAttempt_el (e : Strobe) (s : State) : (endAttempt e s).el = s.el := rfl
@[simp] theorem endAttempt_raw (e : Strobe) (s : State) : (endAttempt e s).raw = s.raw := rfl
@[simp] theorem endAttempt_humRaw (e : Strobe) (s : State) : (endAttempt e s).humRaw = s.humRaw := rfl
@[simp] theorem endAttempt_tmpSign (e : Strobe) (s : State) : (endAttempt e s).tmpSign = s.tmpSign := rfl
@[simp] theorem endAttempt_tmpMag (e : Strobe) (s : State) : (endAttempt e s).tmpMag = s.tmpMag := rfl
@[simp] theorem endAttempt_last (e : Strobe) (s : State) : (endAttempt e s).last = strobeStatus e := rfl
@[simp] theorem endAttempt_pinIn (e : Strobe) (s : State) : (endAttempt e s).pinIn = s.pinIn := rfl
@[simp] theorem endAttempt_strobe (e : Strobe) (s : State) : (endAttempt e s).strobe = some e := rfl
@[simp] theorem endAttempt_hRdata (e : Strobe) (s : State) : (endAttempt e s).hRdata = s.hRdata := rfl
@[simp] theorem endAttempt_tickNo (e : Strobe) (s : State) : (endAttempt e s).tickNo = s.tickNo := rfl
@[simp] theorem endAttempt_env (e : Strobe) (s : State) : (endAttempt e s).env = s.env := rfl
@[simp] theorem endAttempt_draws (e : Strobe) (s : State) : (endAttempt e s).draws = s.draws := rfl

/-! ## `abortTimeout` -/

@[simp] theorem abortTimeout_run (s : State) : (abortTimeout s).run = s.run := rfl
@[simp] theorem abortTimeout_ph (s : State) : (abortTimeout s).ph = .sleep := rfl
@[simp] theorem abortTimeout_bitIdx (s : State) : (abortTimeout s).bitIdx = s.bitIdx := rfl
@[simp] theorem abortTimeout_dly (s : State) : (abortTimeout s).dly = 0 := rfl
@[simp] theorem abortTimeout_el (s : State) : (abortTimeout s).el = s.el := rfl
@[simp] theorem abortTimeout_raw (s : State) : (abortTimeout s).raw = s.raw := rfl
@[simp] theorem abortTimeout_humRaw (s : State) : (abortTimeout s).humRaw = s.humRaw := rfl
@[simp] theorem abortTimeout_tmpSign (s : State) : (abortTimeout s).tmpSign = s.tmpSign := rfl
@[simp] theorem abortTimeout_tmpMag (s : State) : (abortTimeout s).tmpMag = s.tmpMag := rfl
@[simp] theorem abortTimeout_last (s : State) : (abortTimeout s).last = .timeout := rfl
@[simp] theorem abortTimeout_pinIn (s : State) : (abortTimeout s).pinIn = s.pinIn := rfl
@[simp] theorem abortTimeout_strobe (s : State) : (abortTimeout s).strobe = some .timeout := rfl
@[simp] theorem abortTimeout_hRdata (s : State) : (abortTimeout s).hRdata = s.hRdata := rfl
@[simp] theorem abortTimeout_tickNo (s : State) : (abortTimeout s).tickNo = s.tickNo := rfl
@[simp] theorem abortTimeout_env (s : State) : (abortTimeout s).env = s.env := rfl
@[simp] theorem abortTimeout_draws (s : State) : (abortTimeout s).draws = s.draws := rfl

/-! ## `failChecksum` -/

@[simp] theorem failChecksum_run (s : State) : (failChecksum s).run = s.run := rfl
@[simp] theorem failChecksum_ph (s : State) : (failChecksum s).ph = .sleep := rfl
@[simp] theorem failChecksum_bitIdx (s : State) : (failChecksum s).bitIdx = s.bitIdx := rfl
@[simp] theorem failChecksum_dly (s : State) : (failChecksum s).dly = 0 := rfl
@[simp] theorem failChecksum_el (s : State) : (failChecksum s).el = s.el := rfl
@[simp] theorem failChecksum_raw (s : State) : (failChecksum s).raw = s.raw := rfl
@[simp] theorem failChecksum_humRaw (s : State) : (failChecksum s).humRaw = s.humRaw := rfl
@[simp] theorem failChecksum_tmpSign (s : State) : (failChecksum s).tmpSign = s.tmpSign := rfl
@[simp] theorem failChecksum_tmpMag (s : State) : (failChecksum s).tmpMag = s.tmpMag := rfl
@[simp] theorem failChecksum_last (s : State) : (failChecksum s).last = .checksum := rfl
@[simp] theorem failChecksum_pinIn (s : State) : (failChecksum s).pinIn = s.pinIn := rfl
@[simp] theorem failChecksum_strobe (s : State) : (failChecksum s).strobe = some .checksum := rfl
@[simp] theorem failChecksum_hRdata (s : State) : (failChecksum s).hRdata = s.hRdata := rfl
@[simp] theorem failChecksum_tickNo (s : State) : (failChecksum s).tickNo = s.tickNo := rfl
@[simp] theorem failChecksum_env (s : State) : (failChecksum s).env = s.env := rfl
@[simp] theorem failChecksum_draws (s : State) : (failChecksum s).draws = s.draws := rfl

/-! ## `commitOk` -/

@[simp] theorem commitOk_run (s : State) : (commitOk s).run = s.run := rfl
@[simp] theorem commitOk_ph (s : State) : (commitOk s).ph = .sleep := rfl
@[simp] theorem commitOk_bitIdx (s : State) : (commitOk s).bitIdx = s.bitIdx := rfl
@[simp] theorem commitOk_dly (s : State) : (commitOk s).dly = 0 := rfl
@[simp] theorem commitOk_el (s : State) : (commitOk s).el = s.el := rfl
@[simp] theorem commitOk_raw (s : State) : (commitOk s).raw = s.raw := rfl
@[simp] theorem commitOk_humRaw (s : State) : (commitOk s).humRaw = humField s.raw := rfl
@[simp] theorem commitOk_tmpSign (s : State) : (commitOk s).tmpSign = signField s.raw := rfl
@[simp] theorem commitOk_tmpMag (s : State) : (commitOk s).tmpMag = magField s.raw := rfl
@[simp] theorem commitOk_last (s : State) : (commitOk s).last = .ok := rfl
@[simp] theorem commitOk_pinIn (s : State) : (commitOk s).pinIn = s.pinIn := rfl
@[simp] theorem commitOk_strobe (s : State) : (commitOk s).strobe = some .ok := rfl
@[simp] theorem commitOk_hRdata (s : State) : (commitOk s).hRdata = s.hRdata := rfl
@[simp] theorem commitOk_tickNo (s : State) : (commitOk s).tickNo = s.tickNo := rfl
@[simp] theorem commitOk_env (s : State) : (commitOk s).env = s.env := rfl
@[simp] theorem commitOk_draws (s : State) : (commitOk s).draws = s.draws := rfl

/-! ## `enterWakeHigh` -/

@[simp] theorem enterWakeHigh_run (s : State) : (enterWakeHigh s).run = s.run := rfl
@[simp] theorem enterWakeHigh_ph (s : State) : (enterWakeHigh s).ph = .wakeHigh := rfl
@[simp] theorem enterWakeHigh_bitIdx (s : State) : (enterWakeHigh s).bitIdx = s.bitIdx := rfl
@[simp] theorem enterWakeHigh_dly (s : State) : (enterWakeHigh s).dly = 0 := rfl
@[simp] theorem enterWakeHigh_el (s : State) : (enterWakeHigh s).el = s.el := rfl
@[simp] theorem enterWakeHigh_raw (s : State) : (enterWakeHigh s).raw = s.raw := rfl
@[simp] theorem enterWakeHigh_humRaw (s : State) : (enterWakeHigh s).humRaw = s.humRaw := rfl
@[simp] theorem enterWakeHigh_tmpSign (s : State) : (enterWakeHigh s).tmpSign = s.tmpSign := rfl
@[simp] theorem enterWakeHigh_tmpMag (s : State) : (enterWakeHigh s).tmpMag = s.tmpMag := rfl
@[simp] theorem enterWakeHigh_last (s : State) : (enterWakeHigh s).last = s.last := rfl
@[simp] theorem enterWakeHigh_pinIn (s : State) : (enterWakeHigh s).pinIn = s.pinIn := rfl
@[simp] theorem enterWakeHigh_strobe (s : State) : (enterWakeHigh s).strobe = s.strobe := rfl
@[simp] theorem enterWakeHigh_hRdata (s : State) : (enterWakeHigh s).hRdata = s.hRdata := rfl
@[simp] theorem enterWakeHigh_tickNo (s : State) : (enterWakeHigh s).tickNo = s.tickNo := rfl
@[simp] theorem enterWakeHigh_env (s : State) : (enterWakeHigh s).env = s.env := rfl
@[simp] theorem enterWakeHigh_draws (s : State) : (enterWakeHigh s).draws = s.draws := rfl

/-! ## `releaseLine` -/

@[simp] theorem releaseLine_run (s : State) : (releaseLine s).run = s.run := rfl
@[simp] theorem releaseLine_ph (s : State) : (releaseLine s).ph = .ackLow := rfl
@[simp] theorem releaseLine_bitIdx (s : State) : (releaseLine s).bitIdx = s.bitIdx := rfl
@[simp] theorem releaseLine_dly (s : State) : (releaseLine s).dly = 0 := rfl
@[simp] theorem releaseLine_el (s : State) : (releaseLine s).el = 0 := rfl
@[simp] theorem releaseLine_raw (s : State) : (releaseLine s).raw = s.raw := rfl
@[simp] theorem releaseLine_humRaw (s : State) : (releaseLine s).humRaw = s.humRaw := rfl
@[simp] theorem releaseLine_tmpSign (s : State) : (releaseLine s).tmpSign = s.tmpSign := rfl
@[simp] theorem releaseLine_tmpMag (s : State) : (releaseLine s).tmpMag = s.tmpMag := rfl
@[simp] theorem releaseLine_last (s : State) : (releaseLine s).last = s.last := rfl
@[simp] theorem releaseLine_pinIn (s : State) : (releaseLine s).pinIn = s.pinIn := rfl
@[simp] theorem releaseLine_strobe (s : State) : (releaseLine s).strobe = s.strobe := rfl
@[simp] theorem releaseLine_hRdata (s : State) : (releaseLine s).hRdata = s.hRdata := rfl
@[simp] theorem releaseLine_tickNo (s : State) : (releaseLine s).tickNo = s.tickNo := rfl
@[simp] theorem releaseLine_env (s : State) : (releaseLine s).env = s.env := rfl
@[simp] theorem releaseLine_draws (s : State) : (releaseLine s).draws = s.draws := rfl

/-! ## `enterWait` -/

@[simp] theorem enterWait_run (p : Phase) (s : State) : (enterWait p s).run = s.run := rfl
@[simp] theorem enterWait_ph (p : Phase) (s : State) : (enterWait p s).ph = p := rfl
@[simp] theorem enterWait_bitIdx (p : Phase) (s : State) : (enterWait p s).bitIdx = s.bitIdx := rfl
@[simp] theorem enterWait_dly (p : Phase) (s : State) : (enterWait p s).dly = s.dly := rfl
@[simp] theorem enterWait_el (p : Phase) (s : State) : (enterWait p s).el = 1 := rfl
@[simp] theorem enterWait_raw (p : Phase) (s : State) : (enterWait p s).raw = s.raw := rfl
@[simp] theorem enterWait_humRaw (p : Phase) (s : State) : (enterWait p s).humRaw = s.humRaw := rfl
@[simp] theorem enterWait_tmpSign (p : Phase) (s : State) : (enterWait p s).tmpSign = s.tmpSign := rfl
@[simp] theorem enterWait_tmpMag (p : Phase) (s : State) : (enterWait p s).tmpMag = s.tmpMag := rfl
@[simp] theorem enterWait_last (p : Phase) (s : State) : (enterWait p s).last = s.last := rfl
@[simp] theorem enterWait_pinIn (p : Phase) (s : State) : (enterWait p s).pinIn = s.pinIn := rfl
@[simp] theorem enterWait_strobe (p : Phase) (s : State) : (enterWait p s).strobe = s.strobe := rfl
@[simp] theorem enterWait_hRdata (p : Phase) (s : State) : (enterWait p s).hRdata = s.hRdata := rfl
@[simp] theorem enterWait_tickNo (p : Phase) (s : State) : (enterWait p s).tickNo = s.tickNo := rfl
@[simp] theorem enterWait_env (p : Phase) (s : State) : (enterWait p s).env = s.env := rfl
@[simp] theorem enterWait_draws (p : Phase) (s : State) : (enterWait p s).draws = s.draws := rfl

/-! ## `hostReturn` -/

@[simp] theorem hostReturn_run (w : Word) (s : State) : (hostReturn w s).run = s.run := rfl
@[simp] theorem hostReturn_ph (w : Word) (s : State) : (hostReturn w s).ph = s.ph := rfl
@[simp] theorem hostReturn_bitIdx (w : Word) (s : State) : (hostReturn w s).bitIdx = s.bitIdx := rfl
@[simp] theorem hostReturn_dly (w : Word) (s : State) : (hostReturn w s).dly = s.dly := rfl
@[simp] theorem hostReturn_el (w : Word) (s : State) : (hostReturn w s).el = s.el := rfl
@[simp] theorem hostReturn_raw (w : Word) (s : State) : (hostReturn w s).raw = s.raw := rfl
@[simp] theorem hostReturn_humRaw (w : Word) (s : State) : (hostReturn w s).humRaw = s.humRaw := rfl
@[simp] theorem hostReturn_tmpSign (w : Word) (s : State) : (hostReturn w s).tmpSign = s.tmpSign := rfl
@[simp] theorem hostReturn_tmpMag (w : Word) (s : State) : (hostReturn w s).tmpMag = s.tmpMag := rfl
@[simp] theorem hostReturn_last (w : Word) (s : State) : (hostReturn w s).last = s.last := rfl
@[simp] theorem hostReturn_pinIn (w : Word) (s : State) : (hostReturn w s).pinIn = s.pinIn := rfl
@[simp] theorem hostReturn_strobe (w : Word) (s : State) : (hostReturn w s).strobe = s.strobe := rfl
@[simp] theorem hostReturn_hRdata (w : Word) (s : State) : (hostReturn w s).hRdata = w := rfl
@[simp] theorem hostReturn_tickNo (w : Word) (s : State) : (hostReturn w s).tickNo = s.tickNo := rfl
@[simp] theorem hostReturn_env (w : Word) (s : State) : (hostReturn w s).env = s.env := rfl
@[simp] theorem hostReturn_draws (w : Word) (s : State) : (hostReturn w s).draws = s.draws := rfl

/-! ## `beginTick` -/

@[simp] theorem beginTick_run (l : Level) (s : State) : (beginTick l s).run = s.run := rfl
@[simp] theorem beginTick_ph (l : Level) (s : State) : (beginTick l s).ph = s.ph := rfl
@[simp] theorem beginTick_bitIdx (l : Level) (s : State) : (beginTick l s).bitIdx = s.bitIdx := rfl
@[simp] theorem beginTick_dly (l : Level) (s : State) : (beginTick l s).dly = s.dly := rfl
@[simp] theorem beginTick_el (l : Level) (s : State) : (beginTick l s).el = s.el := rfl
@[simp] theorem beginTick_raw (l : Level) (s : State) : (beginTick l s).raw = s.raw := rfl
@[simp] theorem beginTick_humRaw (l : Level) (s : State) : (beginTick l s).humRaw = s.humRaw := rfl
@[simp] theorem beginTick_tmpSign (l : Level) (s : State) : (beginTick l s).tmpSign = s.tmpSign := rfl
@[simp] theorem beginTick_tmpMag (l : Level) (s : State) : (beginTick l s).tmpMag = s.tmpMag := rfl
@[simp] theorem beginTick_last (l : Level) (s : State) : (beginTick l s).last = s.last := rfl
@[simp] theorem beginTick_pinIn (l : Level) (s : State) : (beginTick l s).pinIn = l := rfl
@[simp] theorem beginTick_strobe (l : Level) (s : State) : (beginTick l s).strobe = none := rfl
@[simp] theorem beginTick_hRdata (l : Level) (s : State) : (beginTick l s).hRdata = s.hRdata := rfl
@[simp] theorem beginTick_tickNo (l : Level) (s : State) : (beginTick l s).tickNo = s.tickNo + 1 := rfl
@[simp] theorem beginTick_env (l : Level) (s : State) : (beginTick l s).env = s.env := rfl
@[simp] theorem beginTick_draws (l : Level) (s : State) : (beginTick l s).draws = s.draws := rfl

/-! ## `applyReset` -/

@[simp] theorem applyReset_run (s : State) : (applyReset s).run = false := rfl
@[simp] theorem applyReset_ph (s : State) : (applyReset s).ph = .idle := rfl
@[simp] theorem applyReset_bitIdx (s : State) : (applyReset s).bitIdx = 0 := rfl
@[simp] theorem applyReset_dly (s : State) : (applyReset s).dly = 0 := rfl
@[simp] theorem applyReset_el (s : State) : (applyReset s).el = 0 := rfl
@[simp] theorem applyReset_raw (s : State) : (applyReset s).raw = 0 := rfl
@[simp] theorem applyReset_humRaw (s : State) : (applyReset s).humRaw = 0 := rfl
@[simp] theorem applyReset_tmpSign (s : State) : (applyReset s).tmpSign = false := rfl
@[simp] theorem applyReset_tmpMag (s : State) : (applyReset s).tmpMag = 0 := rfl
@[simp] theorem applyReset_last (s : State) : (applyReset s).last = .noneYet := rfl
@[simp] theorem applyReset_pinIn (s : State) : (applyReset s).pinIn = .low := rfl
@[simp] theorem applyReset_strobe (s : State) : (applyReset s).strobe = none := rfl
@[simp] theorem applyReset_hRdata (s : State) : (applyReset s).hRdata = 0 := rfl
@[simp] theorem applyReset_tickNo (s : State) : (applyReset s).tickNo = 0 := rfl
@[simp] theorem applyReset_env (s : State) : (applyReset s).env = s.env := rfl
@[simp] theorem applyReset_draws (s : State) : (applyReset s).draws = s.draws := rfl

/-! ## `presentEvent` -/

@[simp] theorem presentEvent_run (e : Event) (s : State) : (presentEvent e s).run = s.run := rfl
@[simp] theorem presentEvent_ph (e : Event) (s : State) : (presentEvent e s).ph = s.ph := rfl
@[simp] theorem presentEvent_bitIdx (e : Event) (s : State) : (presentEvent e s).bitIdx = s.bitIdx := rfl
@[simp] theorem presentEvent_dly (e : Event) (s : State) : (presentEvent e s).dly = s.dly := rfl
@[simp] theorem presentEvent_el (e : Event) (s : State) : (presentEvent e s).el = s.el := rfl
@[simp] theorem presentEvent_raw (e : Event) (s : State) : (presentEvent e s).raw = s.raw := rfl
@[simp] theorem presentEvent_humRaw (e : Event) (s : State) : (presentEvent e s).humRaw = s.humRaw := rfl
@[simp] theorem presentEvent_tmpSign (e : Event) (s : State) : (presentEvent e s).tmpSign = s.tmpSign := rfl
@[simp] theorem presentEvent_tmpMag (e : Event) (s : State) : (presentEvent e s).tmpMag = s.tmpMag := rfl
@[simp] theorem presentEvent_last (e : Event) (s : State) : (presentEvent e s).last = s.last := rfl
@[simp] theorem presentEvent_pinIn (e : Event) (s : State) : (presentEvent e s).pinIn = s.pinIn := rfl
@[simp] theorem presentEvent_strobe (e : Event) (s : State) : (presentEvent e s).strobe = s.strobe := rfl
@[simp] theorem presentEvent_hRdata (e : Event) (s : State) : (presentEvent e s).hRdata = s.hRdata := rfl
@[simp] theorem presentEvent_tickNo (e : Event) (s : State) : (presentEvent e s).tickNo = s.tickNo := rfl
@[simp] theorem presentEvent_env (e : Event) (s : State) : (presentEvent e s).env = e :: s.env := rfl
@[simp] theorem presentEvent_draws (e : Event) (s : State) : (presentEvent e s).draws = s.draws := rfl

/-! ## `withEvents` -/

@[simp] theorem withEvents_run (s : State) (es : List Event) : (withEvents s es).run = s.run := rfl
@[simp] theorem withEvents_ph (s : State) (es : List Event) : (withEvents s es).ph = s.ph := rfl
@[simp] theorem withEvents_bitIdx (s : State) (es : List Event) : (withEvents s es).bitIdx = s.bitIdx := rfl
@[simp] theorem withEvents_dly (s : State) (es : List Event) : (withEvents s es).dly = s.dly := rfl
@[simp] theorem withEvents_el (s : State) (es : List Event) : (withEvents s es).el = s.el := rfl
@[simp] theorem withEvents_raw (s : State) (es : List Event) : (withEvents s es).raw = s.raw := rfl
@[simp] theorem withEvents_humRaw (s : State) (es : List Event) : (withEvents s es).humRaw = s.humRaw := rfl
@[simp] theorem withEvents_tmpSign (s : State) (es : List Event) : (withEvents s es).tmpSign = s.tmpSign := rfl
@[simp] theorem withEvents_tmpMag (s : State) (es : List Event) : (withEvents s es).tmpMag = s.tmpMag := rfl
@[simp] theorem withEvents_last (s : State) (es : List Event) : (withEvents s es).last = s.last := rfl
@[simp] theorem withEvents_pinIn (s : State) (es : List Event) : (withEvents s es).pinIn = s.pinIn := rfl
@[simp] theorem withEvents_strobe (s : State) (es : List Event) : (withEvents s es).strobe = s.strobe := rfl
@[simp] theorem withEvents_hRdata (s : State) (es : List Event) : (withEvents s es).hRdata = s.hRdata := rfl
@[simp] theorem withEvents_tickNo (s : State) (es : List Event) : (withEvents s es).tickNo = s.tickNo := rfl
@[simp] theorem withEvents_env (s : State) (es : List Event) : (withEvents s es).env = es := rfl
@[simp] theorem withEvents_draws (s : State) (es : List Event) : (withEvents s es).draws = s.draws := rfl

end Sys2Proof.Laws
end

