-- ==== Sys2Proof/Laws/Ops.lean ====
section
/-! SUPPORT. What each shared operation can do, said once: the cases of a wait, of a counted phase, of the
capture of a bit and of the evaluation, the frame the sequencer's operations share, and the three kinds of step. -/

namespace Sys2Proof.Laws

open Machine

/-! ## Constants and codes -/

@[simp] theorem tWakeLow_val : tWakeLow = 3000 := rfl
@[simp] theorem tWakeHigh_val : tWakeHigh = 25 := rfl
@[simp] theorem tmoAckLow_val : tmoAckLow = 85 := rfl
@[simp] theorem tmoAckHigh_val : tmoAckHigh = 85 := rfl
@[simp] theorem tmoBitLow_val : tmoBitLow = 56 := rfl
@[simp] theorem tmoBitHigh_val : tmoBitHigh = 75 := rfl
@[simp] theorem bitThresh_val : bitThresh = 40 := rfl
@[simp] theorem nBits_val : nBits = 40 := rfl
@[simp] theorem tSleep_val : tSleep = 4000000 := rfl

@[simp] theorem strobeStatus_ok : strobeStatus .ok = .ok := rfl
@[simp] theorem strobeStatus_timeout : strobeStatus .timeout = .timeout := rfl
@[simp] theorem strobeStatus_checksum : strobeStatus .checksum = .checksum := rfl

@[simp] theorem phaseOfCode_phaseCode (p : Phase) : phaseOfCode (phaseCode p) = p := by cases p <;> rfl
@[simp] theorem statusOfCode_statusCode (l : Status) : statusOfCode (statusCode l) = l := by cases l <;> rfl
@[simp] theorem decodePhase_phaseCode (p : Phase) : decodePhase (phaseCode p) = phaseInstr p := by
  simp [decodePhase]

theorem phaseInstr_wellFormed (p : Phase) : (phaseInstr p).wellFormed = true := by cases p <;> rfl
theorem instr_wellFormed (i : Instr) : i.wellFormed = true := by cases i <;> rfl

/-! ## A wait at one tick -/

theorem waitStep_done {L : Level} {T : Nat} {s : State} (h : s.pinIn ≠ L) :
    waitStep L T s = some (.done s.el.toNat) := by
  simp [waitStep, h]

theorem waitStep_timeout {L : Level} {T : Nat} {s : State} (h : s.pinIn = L) (ht : T < s.el.toNat + 1) :
    waitStep L T s = some .timeout := by
  simp [waitStep, h, ht]

theorem waitStep_stay {L : Level} {T : Nat} {s : State} (h : s.pinIn = L) (ht : s.el.toNat + 1 ≤ T) :
    waitStep L T s = none := by
  simp [waitStep, h, Nat.not_lt.mpr ht]

theorem runWait_done {L : Level} {T : Nat} {f : Nat → State → State} {s : State} (h : s.pinIn ≠ L) :
    runWait L T f s = f s.el.toNat s := by
  simp [runWait, waitStep_done h]

theorem runWait_timeout {L : Level} {T : Nat} {f : Nat → State → State} {s : State} (h : s.pinIn = L)
    (ht : T < s.el.toNat + 1) : runWait L T f s = abortTimeout s := by
  simp [runWait, waitStep_timeout h ht]

theorem runWait_stay {L : Level} {T : Nat} {f : Nat → State → State} {s : State} (h : s.pinIn = L)
    (ht : s.el.toNat + 1 ≤ T) : runWait L T f s = { s with el := s.el + 1 } := by
  simp [runWait, waitStep_stay h ht]

/-- One tick of a wait phase has one of three effects. -/
theorem runWait_cases (L : Level) (T : Nat) (f : Nat → State → State) (s : State) :
    (s.pinIn ≠ L ∧ runWait L T f s = f s.el.toNat s) ∨
      (s.pinIn = L ∧ T < s.el.toNat + 1 ∧ runWait L T f s = abortTimeout s) ∨
      (s.pinIn = L ∧ s.el.toNat + 1 ≤ T ∧ runWait L T f s = { s with el := s.el + 1 }) := by
  by_cases h : s.pinIn = L
  · by_cases ht : T < s.el.toNat + 1
    · exact .inr (.inl ⟨h, ht, runWait_timeout h ht⟩)
    · exact .inr (.inr ⟨h, Nat.not_lt.mp ht, runWait_stay h (Nat.not_lt.mp ht)⟩)
  · exact .inl ⟨h, runWait_done h⟩

/-! ## A counted phase, the capture of a bit, the evaluation -/

/-- One tick of a counted phase either leaves it or counts. -/
theorem countTick_cases (n : Nat) (leave : State → State) (s : State) :
    (s.dly.toNat = n - 1 ∧ countTick n leave s = leave s) ∨
      (s.dly.toNat ≠ n - 1 ∧ countTick n leave s = { s with dly := s.dly + 1 }) := by
  by_cases h : s.dly.toNat = n - 1 <;> simp [countTick, h]

/-- The evaluation commits a valid frame and reports any other. -/
theorem evaluate_cases (s : State) :
    (frameValid s.raw = true ∧ evaluate s = commitOk s) ∨
      (frameValid s.raw = false ∧ evaluate s = failChecksum s) := by
  cases h : frameValid s.raw <;> simp [evaluate, h]

/-- A received bit is the last of its frame, which is evaluated, or the next bit's low wait begins. -/
theorem receiveBit_cases (r : Nat) (s : State) :
    (s.bitIdx.toNat = 39 ∧ receiveBit r s = evaluate { s with raw := shiftIn s.raw (thresholdBit r) }) ∨
      (s.bitIdx.toNat ≠ 39 ∧
        receiveBit r s =
          enterWait .bitLow
            { s with raw := shiftIn s.raw (thresholdBit r), bitIdx := s.bitIdx + 1 }) := by
  by_cases h : s.bitIdx.toNat = 39 <;> simp [receiveBit, h]

/-! ## Events -/

@[simp] theorem takeEvent_cons (s : State) (e : Event) (rest : List Event) (h : s.env = e :: rest) :
    takeEvent s = (e, { s with env := rest }) := by
  simp [takeEvent, h]

@[simp] theorem takeEvent_nil (s : State) (h : s.env = []) :
    takeEvent s = (Config.freeEvent s.draws, { s with draws := s.draws + 1 }) := by
  simp [takeEvent, h]

/-- Taking an event changes only the surroundings' fields. -/
theorem takeEvent_frame (s : State) :
    ∃ es n, (takeEvent s).2 = { s with env := es, draws := n } := by
  cases h : s.env with
  | nil => exact ⟨s.env, s.draws + 1, by rw [takeEvent_nil s h]⟩
  | cons e rest => exact ⟨rest, s.draws, by rw [takeEvent_cons s e rest h]⟩

/-! ## The three kinds of step -/

theorem step_host {s s1 : State} {w : BitVec 35} (h : takeEvent s = (.host w, s1)) :
    step s = exec (decodeHost w) s1 := by
  simp [step, h]

theorem step_tick {s s1 : State} {l : Level} (h : takeEvent s = (.tick l, s1)) :
    step s = exec (phaseInstr s1.ph) (beginTick l s1) := by
  simp [step, h]

theorem step_reset {s s1 : State} (h : takeEvent s = (.reset, s1)) : step s = .next (applyReset s1) := by
  simp [step, h]

/-! ## What a tick of a phase does -/

/-- The next state of one tick of a phase, the line already sampled (44_sampler.md R187). -/
def tickPhase (p : Phase) (s : State) : State :=
  match p with
  | .idle => if s.run then startAttempt s else s
  | .wakeLow => countTick tWakeLow enterWakeHigh s
  | .wakeHigh => countTick tWakeHigh releaseLine s
  | .ackLow => runWait .low tmoAckLow (fun _ => enterWait .ackHigh) s
  | .ackHigh => runWait .high tmoAckHigh (fun _ => enterWait .bitLow) s
  | .bitLow => runWait .low tmoBitLow (fun _ => enterWait .bitHigh) s
  | .bitHigh => runWait .high tmoBitHigh receiveBit s
  | .sleep => countTick tSleep startAttempt s

theorem exec_phaseInstr (p : Phase) (s : State) : exec (phaseInstr p) s = .next (tickPhase p s) := by
  cases p <;> rfl

/-- A tick always has a next state: one tick of the phase, on the state with the line sampled. -/
theorem step_tick_next {s s1 : State} {l : Level} (h : takeEvent s = (.tick l, s1)) :
    step s = .next (tickPhase s1.ph (beginTick l s1)) := by
  rw [step_tick h, exec_phaseInstr]

/-! ## What a host transaction does -/

theorem windowWord_ctrl (s : State) : windowWord 0b00#2 s = 0 := by simp [windowWord]
theorem windowWord_status (s : State) : windowWord 0b01#2 s = statusBits s.last s.run := by
  simp [windowWord, statusOf]
theorem windowWord_humidity (s : State) : windowWord 0b10#2 s = f32 false s.humRaw.toNat 10 := by
  simp [windowWord, humidityWord]
theorem windowWord_temperature (s : State) : windowWord 0b11#2 s = f32 s.tmpSign s.tmpMag.toNat 10 := by
  simp [windowWord, temperatureWord]

/-- A transaction word decodes to one of the nine transactions (30_encoding.md R82). -/
theorem decodeHost_cases (w : BitVec 35) :
    (∃ d, decodeHost w = .startSampling d) ∨ (∃ d, decodeHost w = .ctrlNop d) ∨
      (∃ d, decodeHost w = .writeIgnoredW1 d) ∨ (∃ d, decodeHost w = .writeIgnoredW2 d) ∨
      (∃ d, decodeHost w = .writeIgnoredW3 d) ∨ (∃ d, decodeHost w = .readCtrl d) ∨
      (∃ d, decodeHost w = .getStatus d) ∨ (∃ d, decodeHost w = .getHumidity d) ∨
      (∃ d, decodeHost w = .getTemperature d) := by
  unfold decodeHost
  generalize w.getLsbD 34 = we
  generalize w.getLsbD 0 = start
  generalize w.extractLsb' 32 2 = addr
  cases we <;> cases start <;> dsimp only <;> by_cases h0 : addr = 0b00#2 <;> by_cases h1 : addr = 0b01#2 <;>
    by_cases h2 : addr = 0b10#2 <;> simp [h0, h1, h2]

/-- A host transaction launches the sampler, or faults because it is launched, or leaves the state as it is, or
returns a word. -/
theorem exec_decodeHost_cases (w : BitVec 35) (s : State) :
    (∃ d, decodeHost w = .startSampling d ∧
      ((s.run = true ∧ exec (decodeHost w) s = .fault .secondStart) ∨
        (s.run = false ∧ exec (decodeHost w) s = .next { s with run := true }))) ∨
    ((∀ d, decodeHost w ≠ .startSampling d) ∧
      (exec (decodeHost w) s = .next s ∨ ∃ v, exec (decodeHost w) s = .next (hostReturn v s))) := by
  rcases decodeHost_cases w with
    ⟨d, h⟩ | ⟨d, h⟩ | ⟨d, h⟩ | ⟨d, h⟩ | ⟨d, h⟩ | ⟨d, h⟩ | ⟨d, h⟩ | ⟨d, h⟩ | ⟨d, h⟩ <;> rw [h]
  · refine .inl ⟨d, rfl, ?_⟩
    cases hr : s.run <;> simp [exec, execStartSampling, hr]
  · exact .inr ⟨nofun, .inl rfl⟩
  · exact .inr ⟨nofun, .inl rfl⟩
  · exact .inr ⟨nofun, .inl rfl⟩
  · exact .inr ⟨nofun, .inl rfl⟩
  · exact .inr ⟨nofun, .inr ⟨_, rfl⟩⟩
  · exact .inr ⟨nofun, .inr ⟨_, rfl⟩⟩
  · exact .inr ⟨nofun, .inr ⟨_, rfl⟩⟩
  · exact .inr ⟨nofun, .inr ⟨_, rfl⟩⟩

/-- What a tick of a phase can do, said once: a property of every next state follows from the eleven ways a tick can
go. -/
theorem tickPhase_cases {P : State → Prop} (p : Phase) (s : State)
    (idle : p = .idle → P (if s.run then startAttempt s else s))
    (counts : p = .wakeLow ∨ p = .wakeHigh ∨ p = .sleep → P { s with dly := s.dly + 1 })
    (leavesWakeLow : p = .wakeLow → P (enterWakeHigh s))
    (leavesWakeHigh : p = .wakeHigh → P (releaseLine s))
    (leavesSleep : p = .sleep → P (startAttempt s))
    (waits : isWait p = true → P { s with el := s.el + 1 })
    (aborts : isWait p = true → P (abortTimeout s))
    (endsAckLow : p = .ackLow → P (enterWait .ackHigh s))
    (endsAckHigh : p = .ackHigh → P (enterWait .bitLow s))
    (endsBitLow : p = .bitLow → P (enterWait .bitHigh s))
    (endsBitHigh : p = .bitHigh → P (receiveBit s.el.toNat s)) : P (tickPhase p s) := by
  cases p with
  | idle => exact idle rfl
  | wakeLow =>
    rcases countTick_cases tWakeLow enterWakeHigh s with ⟨-, h⟩ | ⟨-, h⟩ <;> rw [tickPhase, h]
    · exact leavesWakeLow rfl
    · exact counts (.inl rfl)
  | wakeHigh =>
    rcases countTick_cases tWakeHigh releaseLine s with ⟨-, h⟩ | ⟨-, h⟩ <;> rw [tickPhase, h]
    · exact leavesWakeHigh rfl
    · exact counts (.inr (.inl rfl))
  | sleep =>
    rcases countTick_cases tSleep startAttempt s with ⟨-, h⟩ | ⟨-, h⟩ <;> rw [tickPhase, h]
    · exact leavesSleep rfl
    · exact counts (.inr (.inr rfl))
  | ackLow =>
    rcases runWait_cases .low tmoAckLow (fun _ => enterWait .ackHigh) s with ⟨-, h⟩ | ⟨-, -, h⟩ | ⟨-, -, h⟩ <;>
      rw [tickPhase, h]
    · exact endsAckLow rfl
    · exact aborts rfl
    · exact waits rfl
  | ackHigh =>
    rcases runWait_cases .high tmoAckHigh (fun _ => enterWait .bitLow) s with ⟨-, h⟩ | ⟨-, -, h⟩ | ⟨-, -, h⟩ <;>
      rw [tickPhase, h]
    · exact endsAckHigh rfl
    · exact aborts rfl
    · exact waits rfl
  | bitLow =>
    rcases runWait_cases .low tmoBitLow (fun _ => enterWait .bitHigh) s with ⟨-, h⟩ | ⟨-, -, h⟩ | ⟨-, -, h⟩ <;>
      rw [tickPhase, h]
    · exact endsBitLow rfl
    · exact aborts rfl
    · exact waits rfl
  | bitHigh =>
    rcases runWait_cases .high tmoBitHigh receiveBit s with ⟨-, h⟩ | ⟨-, -, h⟩ | ⟨-, -, h⟩ <;> rw [tickPhase, h]
    · exact endsBitHigh rfl
    · exact aborts rfl
    · exact waits rfl

/-- What a step can do, said once: if it answers a next state, it took an event, which changed the surroundings' fields
only, and was a tick of the phase, a reset, or a host transaction with one of three effects. -/
theorem step_next_cases {s s1 t : State} {e : Event} (he : takeEvent s = (e, s1)) (h : step s = .next t) :
    (∃ es n, s1 = { s with env := es, draws := n }) ∧
      ((∃ l, e = .tick l ∧ t = tickPhase s1.ph (beginTick l s1)) ∨ (e = .reset ∧ t = applyReset s1) ∨
        (∃ w, e = .host w ∧
          ((∃ d, decodeHost w = .startSampling d ∧ s1.run = false ∧ t = { s1 with run := true }) ∨
            ((∀ d, decodeHost w ≠ .startSampling d) ∧ (t = s1 ∨ ∃ v, t = hostReturn v s1))))) := by
  refine ⟨?_, ?_⟩
  · obtain ⟨es, n, hf⟩ := takeEvent_frame s
    rw [he] at hf
    exact ⟨es, n, hf⟩
  · cases e with
    | tick l => rw [step_tick_next he] at h; cases h; exact .inl ⟨l, rfl, rfl⟩
    | reset => rw [step_reset he] at h; cases h; exact .inr (.inl ⟨rfl, rfl⟩)
    | host w =>
      rw [step_host he] at h
      refine .inr (.inr ⟨w, rfl, ?_⟩)
      rcases exec_decodeHost_cases w s1 with ⟨d, hd, ⟨-, h2⟩ | ⟨hr, h2⟩⟩ | ⟨hn, h2 | ⟨v, h2⟩⟩ <;> rw [h2] at h <;> cases h
      · exact .inl ⟨d, hd, hr, rfl⟩
      · exact .inr ⟨hn, .inl rfl⟩
      · exact .inr ⟨hn, .inr ⟨v, rfl⟩⟩

/-- The fields no operation of the sequencer touches once the tick has begun. -/
def sameSurroundings (s t : State) : Prop :=
  t.run = s.run ∧ t.pinIn = s.pinIn ∧ t.hRdata = s.hRdata ∧ t.tickNo = s.tickNo ∧ t.env = s.env ∧
    t.draws = s.draws

theorem evaluate_surroundings (s : State) : sameSurroundings s (evaluate s) := by
  rcases evaluate_cases s with ⟨-, h⟩ | ⟨-, h⟩ <;> simp [h, sameSurroundings]

theorem receiveBit_surroundings (r : Nat) (s : State) : sameSurroundings s (receiveBit r s) := by
  rcases receiveBit_cases r s with ⟨-, h⟩ | ⟨-, h⟩
  · rw [h]; exact evaluate_surroundings _
  · simp [h, sameSurroundings]

theorem runWait_surroundings (L : Level) (T : Nat) {f : Nat → State → State} (s : State)
    (hf : ∀ r, sameSurroundings s (f r s)) : sameSurroundings s (runWait L T f s) := by
  rcases runWait_cases L T f s with ⟨-, h⟩ | ⟨-, -, h⟩ | ⟨-, -, h⟩
  · rw [h]; exact hf _
  · simp [h, sameSurroundings]
  · simp [h, sameSurroundings]

theorem countTick_surroundings (n : Nat) {f : State → State} (s : State) (hf : sameSurroundings s (f s)) :
    sameSurroundings s (countTick n f s) := by
  rcases countTick_cases n f s with ⟨-, h⟩ | ⟨-, h⟩
  · rw [h]; exact hf
  · simp [h, sameSurroundings]

theorem tickPhase_surroundings (p : Phase) (s : State) : sameSurroundings s (tickPhase p s) := by
  cases p with
  | idle => cases h : s.run <;> simp [tickPhase, h, sameSurroundings]
  | wakeLow => exact countTick_surroundings _ _ (by simp [sameSurroundings])
  | wakeHigh => exact countTick_surroundings _ _ (by simp [sameSurroundings])
  | ackLow => exact runWait_surroundings _ _ _ (by simp [sameSurroundings])
  | ackHigh => exact runWait_surroundings _ _ _ (by simp [sameSurroundings])
  | bitLow => exact runWait_surroundings _ _ _ (by simp [sameSurroundings])
  | bitHigh => exact runWait_surroundings _ _ _ (fun r => receiveBit_surroundings r s)
  | sleep => exact countTick_surroundings _ _ (by simp [sameSurroundings])

end Sys2Proof.Laws
end

