-- ==== Sys2Proof/Laws/PerInstr.lean ====
section
/-! SUPPORT. The family `RowOfTable`: an instruction's code fits its space and is a code of its own row of the
opcode table (30_encoding.md R72, R76, R77, R78, R82). One lemma for each constructor. -/

namespace Sys2Proof.Laws

/-- A transaction word under the mask that looks at `h_we` and `h_addr` only. -/
theorem hostWord_and_top (we : BitVec 1) (addr : BitVec 2) (d : BitVec 32) :
    hostWord we addr d &&& 0x700000000#35 = hostWord we addr 0 := by
  apply BitVec.eq_of_getLsbD_eq
  intro i hi
  simp only [BitVec.getLsbD_and, hostWord_getLsbD]
  interval_cases i <;> simp

/-- A transaction word under the mask that looks at `h_wdata[0]` too. -/
theorem hostWord_and_start (we : BitVec 1) (addr : BitVec 2) (d : BitVec 31) (b : BitVec 1) :
    hostWord we addr (d ++ b) &&& 0x700000001#35 = hostWord we addr (0#31 ++ b) := by
  apply BitVec.eq_of_getLsbD_eq
  intro i hi
  simp only [BitVec.getLsbD_and, hostWord_getLsbD, data_getLsbD]
  interval_cases i <;> simp

theorem toNat_and_top (we : BitVec 1) (addr : BitVec 2) (d : BitVec 32) :
    (hostWord we addr d).toNat &&& 0x700000000 = (hostWord we addr 0).toNat := by
  rw [← hostWord_and_top we addr d, BitVec.toNat_and]; rfl

theorem toNat_and_start (we : BitVec 1) (addr : BitVec 2) (d : BitVec 31) (b : BitVec 1) :
    (hostWord we addr (d ++ b)).toNat &&& 0x700000001 = (hostWord we addr (0#31 ++ b)).toNat := by
  rw [← hostWord_and_start we addr d b, BitVec.toNat_and]; rfl

namespace RowOfTable

/-- The code fits the width of its space and matches the row that bears the instruction's mnemonic. -/
def Statement (i : Instr) : Prop :=
  encode i < 2 ^ formatWidth (instrFormat i) ∧
    ∃ r ∈ opcodeRows,
      r.mnemonic = instrMnemonic i ∧ r.format = instrFormat i ∧ rowMatches r (encode i) = true

theorem of_row {i : Instr} (r : OpcodeRow) (hr : r ∈ opcodeRows) (hw : encode i < 2 ^ formatWidth (instrFormat i))
    (hm : r.mnemonic = instrMnemonic i) (hf : r.format = instrFormat i) (hc : encode i &&& r.mask = r.value) :
    Statement i :=
  ⟨hw, r, hr, hm, hf, by simp [rowMatches, hc]⟩

theorem startSampling (d : BitVec 31) : Statement (.startSampling d) :=
  of_row ⟨"START_SAMPLING", .host35, 0x400000001, 0x700000001⟩ (by simp [opcodeRows, hostRows])
    (BitVec.isLt _) rfl rfl ((toNat_and_start _ _ d _).trans (by decide))

theorem ctrlNop (d : BitVec 31) : Statement (.ctrlNop d) :=
  of_row ⟨"CTRL_NOP", .host35, 0x400000000, 0x700000001⟩ (by simp [opcodeRows, hostRows])
    (BitVec.isLt _) rfl rfl ((toNat_and_start _ _ d _).trans (by decide))

theorem writeIgnoredW1 (d : BitVec 32) : Statement (.writeIgnoredW1 d) :=
  of_row ⟨"WRITE_IGNORED_W1", .host35, 0x500000000, 0x700000000⟩ (by simp [opcodeRows, hostRows])
    (BitVec.isLt _) rfl rfl ((toNat_and_top _ _ d).trans (by decide))

theorem writeIgnoredW2 (d : BitVec 32) : Statement (.writeIgnoredW2 d) :=
  of_row ⟨"WRITE_IGNORED_W2", .host35, 0x600000000, 0x700000000⟩ (by simp [opcodeRows, hostRows])
    (BitVec.isLt _) rfl rfl ((toNat_and_top _ _ d).trans (by decide))

theorem writeIgnoredW3 (d : BitVec 32) : Statement (.writeIgnoredW3 d) :=
  of_row ⟨"WRITE_IGNORED_W3", .host35, 0x700000000, 0x700000000⟩ (by simp [opcodeRows, hostRows])
    (BitVec.isLt _) rfl rfl ((toNat_and_top _ _ d).trans (by decide))

theorem readCtrl (d : BitVec 32) : Statement (.readCtrl d) :=
  of_row ⟨"READ_CTRL", .host35, 0x000000000, 0x700000000⟩ (by simp [opcodeRows, hostRows])
    (BitVec.isLt _) rfl rfl ((toNat_and_top _ _ d).trans (by decide))

theorem getStatus (d : BitVec 32) : Statement (.getStatus d) :=
  of_row ⟨"GET_STATUS", .host35, 0x100000000, 0x700000000⟩ (by simp [opcodeRows, hostRows])
    (BitVec.isLt _) rfl rfl ((toNat_and_top _ _ d).trans (by decide))

theorem getHumidity (d : BitVec 32) : Statement (.getHumidity d) :=
  of_row ⟨"GET_HUMIDITY", .host35, 0x200000000, 0x700000000⟩ (by simp [opcodeRows, hostRows])
    (BitVec.isLt _) rfl rfl ((toNat_and_top _ _ d).trans (by decide))

theorem getTemperature (d : BitVec 32) : Statement (.getTemperature d) :=
  of_row ⟨"GET_TEMPERATURE", .host35, 0x300000000, 0x700000000⟩ (by simp [opcodeRows, hostRows])
    (BitVec.isLt _) rfl rfl ((toNat_and_top _ _ d).trans (by decide))

theorem idle : Statement .idle :=
  of_row ⟨"IDLE", .phase3, 0x0, 0x7⟩ (by simp [opcodeRows, phaseRows]) (by decide) rfl rfl (by decide)

theorem wakeLow : Statement .wakeLow :=
  of_row ⟨"WAKE_LOW", .phase3, 0x1, 0x7⟩ (by simp [opcodeRows, phaseRows]) (by decide) rfl rfl (by decide)

theorem wakeHigh : Statement .wakeHigh :=
  of_row ⟨"WAKE_HIGH", .phase3, 0x2, 0x7⟩ (by simp [opcodeRows, phaseRows]) (by decide) rfl rfl (by decide)

theorem ackLow : Statement .ackLow :=
  of_row ⟨"ACK_LOW", .phase3, 0x3, 0x7⟩ (by simp [opcodeRows, phaseRows]) (by decide) rfl rfl (by decide)

theorem ackHigh : Statement .ackHigh :=
  of_row ⟨"ACK_HIGH", .phase3, 0x4, 0x7⟩ (by simp [opcodeRows, phaseRows]) (by decide) rfl rfl (by decide)

theorem bitLow : Statement .bitLow :=
  of_row ⟨"BIT_LOW", .phase3, 0x5, 0x7⟩ (by simp [opcodeRows, phaseRows]) (by decide) rfl rfl (by decide)

theorem bitHigh : Statement .bitHigh :=
  of_row ⟨"BIT_HIGH", .phase3, 0x6, 0x7⟩ (by simp [opcodeRows, phaseRows]) (by decide) rfl rfl (by decide)

theorem sleep : Statement .sleep :=
  of_row ⟨"SLEEP", .phase3, 0x7, 0x7⟩ (by simp [opcodeRows, phaseRows]) (by decide) rfl rfl (by decide)

theorem frame (h : BitVec 16) (sgn : BitVec 1) (m : BitVec 15) (c : BitVec 8) : Statement (.frame h sgn m c) :=
  of_row ⟨"FRAME", .frame40, 0x0, 0x0⟩ (by simp [opcodeRows, dataRows]) (BitVec.isLt _) rfl rfl (Nat.and_zero _)

theorem lastNone : Statement .lastNone :=
  of_row ⟨"LAST_NONE", .last2, 0x0, 0x3⟩ (by simp [opcodeRows, dataRows]) (by decide) rfl rfl (by decide)

theorem lastOk : Statement .lastOk :=
  of_row ⟨"LAST_OK", .last2, 0x1, 0x3⟩ (by simp [opcodeRows, dataRows]) (by decide) rfl rfl (by decide)

theorem lastTimeout : Statement .lastTimeout :=
  of_row ⟨"LAST_TIMEOUT", .last2, 0x2, 0x3⟩ (by simp [opcodeRows, dataRows]) (by decide) rfl rfl (by decide)

theorem lastChecksum : Statement .lastChecksum :=
  of_row ⟨"LAST_CHECKSUM", .last2, 0x3, 0x3⟩ (by simp [opcodeRows, dataRows]) (by decide) rfl rfl (by decide)

theorem statusWord (l : Status) (r : Bool) : Statement (.statusWord l r) :=
  of_row ⟨"STATUS_WORD", .word32, 0x00000000, 0xFFFFFFF8⟩ (by simp [opcodeRows, dataRows]) (BitVec.isLt _) rfl rfl
    (by cases l <;> cases r <;> decide)

end RowOfTable

end Sys2Proof.Laws
end

