-- ==== Sys2Proof/Tests/Slice0.lean ====
section
/-! SUPPORT. The model's own tests. Expected results are the spec's: its encoding tables, its worked examples and its
test vectors (95_test_vectors.md), named beside each test. The second half holds a witness for each statement that has
hypotheses: a concrete state and operands that meet all of them. -/

namespace Sys2Proof.Tests

open Sys2Proof Sys2Proof.Machine

/-- The next state of an outcome, if it is one. -/
def nextOf : Host.Outcome State Fault Refusal → Option State
  | .next t => some t
  | .fault _ => none
  | .refused _ => none

/-- The fault of an outcome, if it is one. -/
def faultOf : Host.Outcome State Fault Refusal → Option Fault
  | .next _ => none
  | .fault f => some f
  | .refused _ => none

/-- A launched sampler in a phase. -/
def at' (p : Phase) : State := { State.reset with run := true, ph := p }

/-- With the Reading 400, 0, 257 of V-E1. -/
def good (s : State) : State := { s with humRaw := 400, tmpMag := 257 }

/-! ## Well-formedness: operands the hardware does not wire are refused (R81, R100) -/

theorem test_wf_drive_low : (ListingOp.drive .low 2999).wellFormed = false := by decide
theorem test_wf_drive_high : (ListingOp.drive .high 3000).wellFormed = false := by decide
theorem test_wf_measure_low : (ListingOp.measure .low 75).wellFormed = false := by decide
theorem test_wf_measure_high : (ListingOp.measure .high 86).wellFormed = false := by decide
theorem test_wf_pause : (ListingOp.pause 4000001).wellFormed = false := by decide
theorem test_wf_phases : (phaseListing .idle ++ phaseListing .wakeLow ++ phaseListing .wakeHigh ++
    phaseListing .ackLow ++ phaseListing .ackHigh ++ phaseListing .bitLow ++ phaseListing .bitHigh ++
    phaseListing .sleep).all ListingOp.wellFormed = true := by decide
theorem test_wf_frame : (Instr.frame 400 0 257 0x93).wellFormed = true := by decide

/-! ## Decoding: words written out from 30_encoding.md R72, R76, R77, R78, R82 -/

theorem test_decode_start_sampling : decode .host35 0b10000000000000000000000000000000001 = .ok (.startSampling 0) := by
  decide
theorem test_decode_start_ignored_bits : decode .host35 0x4FFFFFFFF = .ok (.startSampling 0x7FFFFFFF#31) := by decide
theorem test_decode_ctrl_nop : decode .host35 0x4FFFFFFFE = .ok (.ctrlNop 0x7FFFFFFF#31) := by decide
theorem test_decode_write_w1 : decode .host35 0x500000007 = .ok (.writeIgnoredW1 7) := by decide
theorem test_decode_write_w2 : decode .host35 0x642C80000 = .ok (.writeIgnoredW2 0x42C80000#32) := by decide
theorem test_decode_write_w3 : decode .host35 0x742C80000 = .ok (.writeIgnoredW3 0x42C80000#32) := by decide
theorem test_decode_read_ctrl : decode .host35 0x000000000 = .ok (.readCtrl 0) := by decide
theorem test_decode_get_status : decode .host35 0x100000000 = .ok (.getStatus 0) := by decide
theorem test_decode_get_humidity : decode .host35 0x200000001 = .ok (.getHumidity 1) := by decide
theorem test_decode_get_temperature : decode .host35 0x300000000 = .ok (.getTemperature 0) := by decide
theorem test_decode_idle : decode .phase3 0b000 = .ok .idle := by decide
theorem test_decode_wake_low : decode .phase3 0b001 = .ok .wakeLow := by decide
theorem test_decode_wake_high : decode .phase3 0b010 = .ok .wakeHigh := by decide
theorem test_decode_ack_low : decode .phase3 0b011 = .ok .ackLow := by decide
theorem test_decode_ack_high : decode .phase3 0b100 = .ok .ackHigh := by decide
theorem test_decode_bit_low : decode .phase3 0b101 = .ok .bitLow := by decide
theorem test_decode_bit_high : decode .phase3 0b110 = .ok .bitHigh := by decide
theorem test_decode_sleep : decode .phase3 0b111 = .ok .sleep := by decide
theorem test_decode_frame :
    decode .frame40 0b0000000110010000100000010000000100010011 = .ok (.frame 400 1 257 0x13) := by decide
theorem test_decode_last_none : decode .last2 0b00 = .ok .lastNone := by decide
theorem test_decode_last_ok : decode .last2 0b01 = .ok .lastOk := by decide
theorem test_decode_last_timeout : decode .last2 0b10 = .ok .lastTimeout := by decide
theorem test_decode_last_checksum : decode .last2 0b11 = .ok .lastChecksum := by decide
theorem test_decode_status_word : decode .word32 0b101 = .ok (.statusWord .timeout true) := by decide

/-! Refused by name. -/

theorem test_decode_host_too_wide : decode .host35 0x800000000 = .error .tooWide := by decide
theorem test_decode_phase_too_wide : decode .phase3 8 = .error .tooWide := by decide
theorem test_decode_status_bits : decode .word32 8 = .error .statusBitsNotZero := by decide

/-! Table words, by their own width and by whole bytes (log entry 3). -/

theorem test_table_host : decodeTableWord 35 0x400000001 = some (.startSampling 0) := by decide
theorem test_table_host_bytes : decodeTableWord 40 0x300000000 = some (.getTemperature 0) := by decide
theorem test_table_frame_bytes : decodeTableWord 40 0xFFFFFFFFFC = some (.frame 0xFFFF#16 1 0x7FFF#15 0xFC) := by decide
theorem test_table_phase_bytes : decodeTableWord 8 0b110 = some .bitHigh := by decide
theorem test_table_last : decodeTableWord 2 0b10 = some .lastTimeout := by decide
theorem test_table_status : decodeTableWord 32 3 = some (.statusWord .ok true) := by decide

/-! ## Host transactions (95_test_vectors.md 2.6, P6) -/

theorem test_start_sampling : -- V-O2
    nextOf (exec (.startSampling 0) State.reset) = some { State.reset with run := true } := by decide
theorem test_start_sampling_again : -- V-O8
    faultOf (exec (.startSampling 0) (at' .sleep)) = some .secondStart := by decide
theorem test_ctrl_nop : -- V-O9
    nextOf (exec (.ctrlNop 0) (at' .ackLow)) = some (at' .ackLow) := by decide
theorem test_write_w1 : nextOf (exec (.writeIgnoredW1 7) State.reset) = some State.reset := by decide -- V-O3
theorem test_write_w2 : -- V-O3
    nextOf (exec (.writeIgnoredW2 0x42C80000#32) State.reset) = some State.reset := by decide
theorem test_write_w3 : -- V-O3
    nextOf (exec (.writeIgnoredW3 0x42C80000#32) State.reset) = some State.reset := by decide
theorem test_read_ctrl : -- P6 step 9
    (nextOf (exec (.readCtrl 0) (at' .idle))).map State.hRdata = some 0 := by decide
theorem test_get_status_ok : -- V-O5
    (nextOf (exec (.getStatus 0) { at' .sleep with last := .ok })).map State.hRdata = some 3 := by decide
theorem test_get_status_checksum : -- V-O7
    (nextOf (exec (.getStatus 0) { at' .sleep with last := .checksum })).map State.hRdata = some 7 := by decide
theorem test_get_humidity : -- V-E1
    (nextOf (exec (.getHumidity 0) (good State.reset))).map State.hRdata = some 0x42200000#32 := by decide
theorem test_get_humidity_largest : -- V-E5
    (nextOf (exec (.getHumidity 0) { State.reset with humRaw := 65535 })).map State.hRdata =
      some 0x45CCCC00#32 := by decide
theorem test_get_temperature : -- V-E3
    (nextOf (exec (.getTemperature 0) { good State.reset with tmpSign := true })).map State.hRdata =
      some 0xC1CD999A#32 := by decide
theorem test_get_temperature_negative_zero : -- V-E4
    (nextOf (exec (.getTemperature 0) { State.reset with tmpSign := true })).map State.hRdata =
      some 0x80000000#32 := by decide
theorem test_status_word : -- V-O6
    (nextOf (exec (.statusWord .timeout true) State.reset)).map State.hRdata = some 5 := by decide

/-! ## Phases (95_test_vectors.md 2.2, 2.3, 2.5, 2.7) -/

theorem test_idle : nextOf (exec .idle State.reset) = some State.reset := by decide -- V-P4
theorem test_idle_launched : -- the example of R190
    nextOf (exec .idle (at' .idle)) = some (at' .wakeLow) := by decide
theorem test_wake_low_goes_on : -- R121
    nextOf (exec .wakeLow { at' .wakeLow with dly := 2998 }) = some { at' .wakeLow with dly := 2999 } := by decide
theorem test_wake_low_ends : -- R121
    nextOf (exec .wakeLow { at' .wakeLow with dly := 2999 }) = some (at' .wakeHigh) := by decide
theorem test_wake_high_goes_on : -- R122
    nextOf (exec .wakeHigh { at' .wakeHigh with dly := 23, el := 70 }) =
      some { at' .wakeHigh with dly := 24, el := 70 } := by decide
theorem test_wake_high_ends : -- R122
    nextOf (exec .wakeHigh { at' .wakeHigh with dly := 24, el := 70 }) = some (at' .ackLow) := by decide
theorem test_ack_low_timeout : -- V-X1
    nextOf (exec .ackLow { good (at' .ackLow) with el := 85, last := .ok }) =
      some { good (at' .sleep) with el := 85, last := .timeout, strobe := some .timeout } := by decide
theorem test_ack_low_at_bound : -- V-X2
    nextOf (exec .ackLow { at' .ackLow with el := 85, pinIn := .high }) =
      some { at' .ackHigh with el := 1, pinIn := .high } := by decide
theorem test_ack_high_timeout : -- P3, tick 3111
    nextOf (exec .ackHigh { at' .ackHigh with el := 85, pinIn := .high }) =
      some { at' .sleep with el := 85, pinIn := .high, last := .timeout, strobe := some .timeout } := by decide
theorem test_ack_high_ends : -- R125
    nextOf (exec .ackHigh { at' .ackHigh with el := 80 }) = some { at' .bitLow with el := 1 } := by decide
theorem test_bit_low_timeout : -- V-X3
    nextOf (exec .bitLow { at' .bitLow with bitIdx := 17, el := 56, raw := 0x320 }) =
      some { at' .sleep with bitIdx := 17, el := 56, raw := 0x320, last := .timeout, strobe := some .timeout } := by
  decide
theorem test_bit_low_ends : -- R141
    nextOf (exec .bitLow { at' .bitLow with el := 56, pinIn := .high }) =
      some { at' .bitHigh with el := 1, pinIn := .high } := by decide
theorem test_bit_high_zero_at_forty : -- V-S5, the middle of a frame
    nextOf (exec .bitHigh { at' .bitHigh with bitIdx := 7, el := 40, raw := 3 }) =
      some { at' .bitLow with bitIdx := 8, el := 1, raw := 6 } := by decide
theorem test_bit_high_last : -- V-X5
    nextOf (exec .bitHigh { at' .bitHigh with bitIdx := 39, el := 70, raw := 0x00C80080C9#40 }) =
      some { good (at' .sleep) with
        bitIdx := 39, el := 70, raw := 0x0190010193#40, last := .ok, strobe := some .ok } := by decide
theorem test_bit_high_mismatch : -- V-X4
    nextOf (exec .bitHigh { good (at' .bitHigh) with bitIdx := 39, el := 26, raw := 0x00C8008080#40, last := .ok }) =
      some { good (at' .sleep) with
        bitIdx := 39, el := 26, raw := 0x0190010100#40, last := .checksum, strobe := some .checksum } := by decide
theorem test_sleep_goes_on : -- V-P1
    nextOf (exec .sleep { at' .sleep with dly := 3999998 }) = some { at' .sleep with dly := 3999999 } := by decide
theorem test_sleep_ends : -- V-P1
    nextOf (exec .sleep { good (at' .sleep) with dly := 3999999, el := 70, raw := 0x0190010193#40, bitIdx := 39 }) =
      some { good (at' .wakeLow) with el := 70 } := by decide

/-! ## Frames and status codes (95_test_vectors.md 2.4) -/

theorem test_frame_largest : -- V-E5
    nextOf (exec (.frame 0xFFFF#16 1 0x7FFF#15 0xFC) State.reset) =
      some { State.reset with
        ph := .sleep, raw := 0xFFFFFFFFFC#40, humRaw := 65535, tmpSign := true, tmpMag := 32767, last := .ok,
        strobe := some .ok } := by decide
theorem test_frame_mismatch : -- V-E10
    nextOf (exec (.frame 400 0 257 0x92) { State.reset with humRaw := 123, tmpMag := 45 }) =
      some { State.reset with
        ph := .sleep, raw := 0x0190010192#40, humRaw := 123, tmpMag := 45, last := .checksum,
        strobe := some .checksum } := by decide
theorem test_last_none : -- R76: the code 0
    (nextOf (exec .lastNone (at' .wakeLow))).map statusOf = some 1 := by decide
theorem test_last_ok : -- R182, V-E11
    nextOf (exec .lastOk { at' .bitHigh with raw := 0x8080000000#40 }) =
      some { at' .sleep with raw := 0x8080000000#40, humRaw := 32896, last := .ok, strobe := some .ok } := by decide
theorem test_last_timeout : -- R182
    nextOf (exec .lastTimeout (good (at' .bitLow))) =
      some { good (at' .sleep) with last := .timeout, strobe := some .timeout } := by decide
theorem test_last_checksum : -- R182
    nextOf (exec .lastChecksum (good (at' .bitHigh))) =
      some { good (at' .sleep) with last := .checksum, strobe := some .checksum } := by decide

/-! ## The line, the timing unit, the pin, reset -/

theorem test_packing_first : -- R149, bytes 0 and 1
    packBits ([26, 26, 26, 26, 26, 26, 26, 70, 70, 26, 26, 70, 26, 26, 26, 26].map thresholdBit) = 0x190#40 := by decide
theorem test_packing_last : -- R149, byte 4, after bytes 2 and 3
    ([70, 26, 26, 70, 26, 26, 70, 70].map thresholdBit).foldl shiftIn 0x01900101#40 = 0x0190010193#40 := by decide
theorem test_measure_immediate : -- R111, row 1
    measure (fun _ => .high) 10 .low 85 0 = (.done 0, 10) := by decide
theorem test_measure_at_bound : -- R111, row 3
    measure (fun n => if n < 95 then .low else .high) 10 .low 85 0 = (.done 85, 95) := by decide
theorem test_measure_timeout : -- R111, row 4
    measure (fun _ => .low) 10 .low 85 0 = (.timeout, 95) := by decide
theorem test_measure_chained : -- R111, row 7
    measure (fun n => if n < 51 then .high else .low) 10 .high 75 1 = (.done 41, 51) := by decide
theorem test_pin_drive : -- R30
    [Phase.idle, .wakeLow, .wakeHigh, .ackLow, .ackHigh, .bitLow, .bitHigh, .sleep].map pinOe =
      [false, true, true, false, false, false, false, false] := by decide
theorem test_reset : -- V-R3
    nextOf (step (withEvents { good (at' .sleep) with raw := 0x0190010193#40, bitIdx := 39 } [.reset])) =
      some State.reset := by decide
theorem test_tick : -- R218, R7: a tick lowers the event of the tick before and is counted
    nextOf (step (withEvents { at' .sleep with strobe := some .ok, tickNo := 6622 } [.tick .high])) =
      some { at' .sleep with dly := 1, pinIn := .high, tickNo := 6623 } := by decide
theorem test_placed_word : -- the last bit of a placed frame is received at the next step
    (nextOf (step (State.reset.withFetchWord 40 0xFFFFFFFFFC))).map (fun t => (t.raw, t.humRaw, t.last)) =
      some (0xFFFFFFFFFC#40, 65535#16, .ok) := by decide

/-! ## Witnesses: host transactions -/

/-- A line level at every tick. -/
def ticks (n : Nat) (l : Level) : List Event := List.replicate n (.tick l)

theorem wit_StartSamplingSetsRunOnly : State.reset.run = false := by decide
theorem wit_SecondStartSamplingFaults : (at' .idle).run = true ∧ (at' .sleep).run = true := by decide
/-- Also for the last clause of `GetHumidityReturnsRendering`. -/
theorem wit_GetTemperatureReturnsRendering :
    let s := withEvents (good (at' .ackLow)) [.tick .low]
    takeEvent s = (.tick .low, good (at' .ackLow)) ∧
      step s = .next { good (at' .ackLow) with el := 1, tickNo := 1 } ∧
      ({ good (at' .ackLow) with el := 1, tickNo := 1 } : State).strobe ≠ some .ok :=
  ⟨rfl, rfl, by decide⟩
theorem wit_GetHumidityReturnsRendering : (0 : Nat) < 65536 ∧ 65535 < 65536 := by decide
theorem wit_HostTransactionFrame :
    exec (decodeHost 0x400000001#35) State.reset = .next (at' .idle) ∧ (at' .idle).run ≠ State.reset.run ∧
      exec (decodeHost 0x700000000#35) (at' .sleep) = .next (at' .sleep) ∧ (at' .sleep).run = true :=
  ⟨rfl, by decide, rfl, by decide⟩

/-! ## Witnesses: phases -/

/-- A phase entered with a count, and what the surroundings present from then on. -/
def waiting (p : Phase) (k0 : Nat) (es : List Event) : State :=
  withEvents { at' p with el := BitVec.ofNat 8 k0 } es

theorem wit_WakeLowDrivesLow3000Ticks :
    let s := withEvents (at' .wakeLow) ((List.replicate 3000 Level.high).map Event.tick ++ [.reset])
    s.ph = .wakeLow ∧ s.dly = 0 ∧ (List.replicate 3000 Level.high).length = 3000 ∧
      s.env = (List.replicate 3000 Level.high).map Event.tick ++ [.reset] :=
  ⟨rfl, rfl, List.length_replicate, rfl⟩
theorem wit_WakeLow_reset :
    let s := withEvents { at' .wakeLow with dly := 1500 } [.reset]
    s.ph = .wakeLow ∧ s.env = .reset :: [] := ⟨rfl, rfl⟩
theorem wit_WakeHighDrivesHigh25Ticks :
    let s := withEvents (at' .wakeHigh) ((List.replicate 25 Level.low).map Event.tick ++ [])
    s.ph = .wakeHigh ∧ s.dly = 0 ∧ (List.replicate 25 Level.low).length = 25 ∧
      s.env = (List.replicate 25 Level.low).map Event.tick ++ [] :=
  ⟨rfl, rfl, List.length_replicate, rfl⟩
theorem wit_AckLowMeasuresLowUpTo85 :
    let s := waiting .ackLow 0 (ticks 86 .low ++ [.tick .high])
    s.ph = .ackLow ∧ s.el = 0 ∧ s.env = List.replicate 86 (.tick .low) ++ [.tick .high] := ⟨rfl, rfl, rfl⟩
theorem wit_AckHighMeasuresHighUpTo85 :
    let s := waiting .ackHigh 1 (ticks 85 .high ++ [])
    let s' := waiting .ackLow 0 (ticks 86 .high ++ [])
    (s.ph = .ackHigh ∧ s.el = 1 ∧ s.env = List.replicate 85 (.tick .high) ++ []) ∧
      s'.ph = .ackLow ∧ s'.el = 0 ∧ s'.env = List.replicate 86 (.tick .high) ++ [] :=
  ⟨⟨rfl, rfl, rfl⟩, rfl, rfl, rfl⟩
theorem wit_BitLowMeasuresLowUpTo56 :
    let s := waiting .bitLow 1 (ticks 56 .low ++ [])
    s.ph = .bitLow ∧ s.el = 1 ∧ s.env = List.replicate 56 (.tick .low) ++ [] := ⟨rfl, rfl, rfl⟩
theorem wit_BitHighMeasuresHighUpTo75 :
    let s := waiting .bitHigh 1 (ticks 75 .high ++ [])
    s.ph = .bitHigh ∧ s.el = 1 ∧ s.env = List.replicate 75 (.tick .high) ++ [] := ⟨rfl, rfl, rfl⟩
theorem wit_BitHigh_bits :
    (at' .bitHigh).pinIn = .low ∧ (at' .bitHigh).bitIdx.toNat ≠ 39 ∧
      ({ at' .bitHigh with bitIdx := 39 } : State).pinIn = .low ∧
      ({ at' .bitHigh with bitIdx := 39 } : State).bitIdx.toNat = 39 ∧
      ({ at' .bitHigh with pinIn := .high } : State).pinIn = .high := by decide
theorem wit_SleepPauses4000000Ticks :
    let s := withEvents (at' .sleep) ((List.replicate 4000000 Level.low).map Event.tick ++ [])
    s.ph = .sleep ∧ s.dly = 0 ∧ (List.replicate 4000000 Level.low).length = 4000000 ∧
      s.env = (List.replicate 4000000 Level.low).map Event.tick ++ [] :=
  ⟨rfl, rfl, List.length_replicate, rfl⟩

/-! ## Witnesses: frames, rendering, encodings -/

theorem wit_OneChecksumPerPayload : frameValid (frameBits 400 0 257 0x93) = true := by decide
theorem wit_RenderingIsNearestBinary32 :
    (65535 < 65536 ∧ ((0x7F7FFFFF#32 : Word).extractLsb' 23 8).toNat < 255) ∧
      0 < 65536 ∧ ((0x80000000#32 : Word).extractLsb' 23 8).toNat < 255 := by decide
theorem wit_DecodeOfEncodeIsIdentity :
    (Instr.startSampling 0x7FFFFFFF#31).wellFormed = true ∧ Instr.sleep.wellFormed = true ∧
      (Instr.frame 0xFFFF#16 1 0x7FFF#15 0xFF#8).wellFormed = true ∧
      (Instr.statusWord .checksum true).wellFormed = true := by decide
theorem wit_EncodeOfDecodeIsIdentity :
    decode .host35 0x7FFFFFFFF = .ok (.writeIgnoredW3 0xFFFFFFFF#32) ∧ decode .phase3 7 = .ok .sleep ∧
      decode .frame40 0xFFFFFFFFFF = .ok (.frame 0xFFFF#16 1 0x7FFF#15 0xFF) ∧
      decode .last2 3 = .ok .lastChecksum ∧ decode .word32 7 = .ok (.statusWord .checksum true) := by decide
theorem wit_PackedBitsLieMsbFirst : (List.replicate 40 true).length = 40 ∧ 0 < 40 ∧ 39 < 40 := by decide

/-! ## Witnesses: the timing unit -/

/-- Low for 85 ticks from tick 10, then high. -/
def lowFor85 (n : Nat) : Level := if n < 95 then .low else .high

theorem wit_Measure_run : -- the longest accepted run, and an immediate return
    (0 ≤ 85 ∧ 0 ≤ 85 ∧ 85 ≤ 85 ∧ (∀ j < 85, lowFor85 (10 + j) = .low) ∧ lowFor85 (10 + 85) ≠ .low) ∧
      0 ≤ 0 ∧ (∀ j < 0, lowFor85 (95 + j) = .low) ∧ lowFor85 (95 + 0) ≠ .low := by decide
theorem wit_Measure_timeout : 0 ≤ 84 ∧ ∀ j ≤ 84, lowFor85 (10 + j) = .low := by decide
theorem wit_Measure_frame :
    1 ≤ 85 ∧ ∀ j, 10 + 1 ≤ j → j ≤ 10 + 85 → (if j = 96 then Level.low else lowFor85 j) = lowFor85 j := by
  refine ⟨by decide, fun j _ h => if_neg (by omega)⟩
theorem wit_WaitPhase_ackLow :
    let s := waiting .ackLow 0 ((List.range (85 + 1 - 0)).map (fun j => Event.tick (lowFor85 (10 + 0 + j))) ++ [])
    waitOperands .ackLow = some (.low, 85) ∧ s.ph = .ackLow ∧ s.el.toNat = 0 ∧ 0 ≤ 85 ∧
      s.env = (List.range (85 + 1 - 0)).map (fun j => Event.tick (lowFor85 (10 + 0 + j))) ++ [] :=
  ⟨rfl, rfl, rfl, by decide, rfl⟩
theorem wit_WaitPhase_ackHigh :
    let s := waiting .ackHigh 85 ((List.range (85 + 1 - 85)).map (fun j => Event.tick (lowFor85 (10 + 85 + j))) ++ [])
    waitOperands .ackHigh = some (.high, 85) ∧ s.ph = .ackHigh ∧ s.el.toNat = 85 ∧ 85 ≤ 85 ∧
      s.env = (List.range (85 + 1 - 85)).map (fun j => Event.tick (lowFor85 (10 + 85 + j))) ++ [] :=
  ⟨rfl, rfl, rfl, by decide, rfl⟩
theorem wit_WaitPhase_bitLow :
    let s := waiting .bitLow 1 ((List.range (56 + 1 - 1)).map (fun j => Event.tick (lowFor85 (10 + 1 + j))) ++ [])
    waitOperands .bitLow = some (.low, 56) ∧ s.ph = .bitLow ∧ s.el.toNat = 1 ∧ 1 ≤ 56 ∧
      s.env = (List.range (56 + 1 - 1)).map (fun j => Event.tick (lowFor85 (10 + 1 + j))) ++ [] :=
  ⟨rfl, rfl, rfl, by decide, rfl⟩
theorem wit_WaitPhase_bitHigh :
    let s := { waiting .bitHigh 1 ((List.range (75 + 1 - 1)).map (fun j => Event.tick (lowFor85 (95 + 1 + j))) ++ []) with
      bitIdx := 39 }
    waitOperands .bitHigh = some (.high, 75) ∧ s.ph = .bitHigh ∧ s.el.toNat = 1 ∧ 1 ≤ 75 ∧ s.bitIdx.toNat = 39 ∧
      s.env = (List.range (75 + 1 - 1)).map (fun j => Event.tick (lowFor85 (95 + 1 + j))) ++ [] :=
  ⟨rfl, rfl, rfl, by decide, rfl, rfl⟩

/-! ## Witnesses: one step -/

theorem wit_StepRuns_host :
    takeEvent (withEvents State.reset [.host 0x100000000#35]) = (.host 0x100000000#35, State.reset) ∧
      decode .host35 (0x100000000#35).toNat = .ok (.getStatus 0) ∧
      (withEvents State.reset [.host 0x100000000#35]).env = .host 0x100000000#35 :: [] ∧
      State.reset.env = [] := by decide
theorem wit_StepRuns_tick :
    takeEvent (withEvents (at' .sleep) [.tick .high]) = (.tick .high, at' .sleep) ∧
      decode .phase3 (phaseCode (at' .sleep).ph).toNat = .ok .sleep := by decide
theorem wit_PlacedWordRunsNext :
    decodeTableWord 35 (0x7FFFFFFFF#35).toNat = some (.writeIgnoredW3 0xFFFFFFFF#32) ∧
      decodeTableWord 3 (7#3).toNat = some .sleep := by decide
/-- Also for the clauses of other statements about a reset: launched before, not after. -/
theorem wit_ResetRestoresEveryElement :
    let s := withEvents (good (at' .sleep)) [.reset]
    takeEvent s = (.reset, good (at' .sleep)) ∧ step s = .next State.reset ∧ s.run = true ∧
      State.reset.run = false := ⟨rfl, rfl, rfl, rfl⟩

/-- The end of an attempt that timed out, in the acknowledgement: V-P3. -/
def pausing (d : BitVec 22) : State := { at' .sleep with last := .timeout, el := 85, dly := d }

theorem inv_launched (es : List Event) : Inv (withEvents (at' .idle) es) := by
  constructor <;> simp [withEvents, at', State.reset]
theorem inv_pausing (es : List Event) : Inv (withEvents (pausing 1) es) := by
  constructor <;> simp [withEvents, pausing, at', State.reset]

theorem wit_StepKeepsInvariant :
    Inv (withEvents (pausing 1) [.tick .low]) ∧
      step (withEvents (pausing 1) [.tick .low]) = .next { pausing 2 with tickNo := 1 } :=
  ⟨inv_pausing _, rfl⟩
theorem wit_HostDutyAvoidsFault :
    let s := withEvents State.reset [.host 0x4FFFFFFFF#35, .tick .low, .host 0x400000000#35, .reset, .host 0x400000001#35]
    dutyKept s.run s.env = true ∧ 5 ≤ s.env.length := by decide

/-- V-X5, before its tick. -/
def lastBit : State := { at' .bitHigh with bitIdx := 39, el := 70, raw := 0x00C80080C9#40 }
/-- V-X5, after its tick. -/
def committed' : State :=
  { good (at' .sleep) with
    bitIdx := 39, el := 70, raw := 0x0190010193#40, last := .ok, strobe := some .ok, tickNo := 1 }

theorem step_lastBit : step (withEvents lastBit [.tick .low]) = .next committed' := rfl

/-- Also for `EventsMarkAttemptEnds`: a tick that emits an event. -/
theorem wit_ReadingReplacedOnlyByCommit :
    takeEvent (withEvents lastBit [.tick .low]) = (.tick .low, lastBit) ∧ Event.tick .low ≠ .reset ∧
      step (withEvents lastBit [.tick .low]) = .next committed' ∧
      committed'.humRaw ≠ (withEvents lastBit [.tick .low]).humRaw ∧ committed'.strobe = some .ok :=
  ⟨rfl, by decide, step_lastBit, by decide, by decide⟩
/-- Also for the host clauses of `PhaseMovesAlongTheSequence` and `EventsMarkAttemptEnds`. -/
theorem wit_GettersChangeOnlyAtCommit :
    (takeEvent (withEvents (pausing 1) [.tick .low]) = (.tick .low, pausing 1) ∧
      step (withEvents (pausing 1) [.tick .low]) = .next { pausing 2 with tickNo := 1 } ∧
      (pausing 2).strobe ≠ some .ok) ∧
    takeEvent (withEvents (pausing 1) [.host 0x500000000#35]) = (.host 0x500000000#35, pausing 1) ∧
      step (withEvents (pausing 1) [.host 0x500000000#35]) = .next (pausing 1) :=
  ⟨⟨rfl, rfl, by decide⟩, rfl, rfl⟩
theorem wit_RunSetOnlyByStart :
    takeEvent (withEvents State.reset [.host 0x400000001#35]) = (.host 0x400000001#35, State.reset) ∧
      step (withEvents State.reset [.host 0x400000001#35]) = .next (at' .idle) ∧ State.reset.run = false ∧
      State.reset.ph = .idle ∧ (at' .idle).run = true := ⟨rfl, rfl, rfl, rfl, rfl⟩
theorem wit_PhaseMovesAlongTheSequence :
    let s := withEvents { at' .sleep with dly := 3999999 } [.tick .high]
    takeEvent s = (.tick .high, { at' .sleep with dly := 3999999 }) ∧
      step s = .next { at' .wakeLow with pinIn := .high, tickNo := 1 } := ⟨rfl, rfl⟩
theorem wit_TimeoutKeepsEverythingElse : -- V-X1
    let s1 : State := { good (at' .ackLow) with el := 85, last := .ok }
    let t : State := { good (at' .sleep) with el := 85, last := .timeout, strobe := some .timeout, tickNo := 1 }
    takeEvent (withEvents s1 [.tick .low]) = (.tick .low, s1) ∧
      step (withEvents s1 [.tick .low]) = .next t ∧ t.strobe = some .timeout := ⟨rfl, rfl, rfl⟩
theorem wit_SampleIgnoredOutsideWaits :
    let s := { at' .wakeLow with dly := 7 }
    isWait s.ph = false ∧
      step (withEvents s (.tick .low :: [])) = .next { s with dly := 8, tickNo := 1 } ∧
      step (withEvents s (.tick .high :: [])) = .next { s with dly := 8, tickNo := 1, pinIn := .high } :=
  ⟨rfl, rfl, rfl⟩
theorem wit_HostsDoNotDisturbTheSequencer : ∀ d, decodeHost 0x400000000#35 ≠ .startSampling d := by
  intro d
  rw [show decodeHost 0x400000000#35 = .ctrlNop 0 from by decide]
  simp

/-! ## Witnesses: bits, frames, attempts -/

/-- The waveform of one bit from the low sample after the first. -/
def bitWave (lo hi : Nat) : List Event :=
  (List.replicate (lo - 1) Level.low ++ List.replicate hi Level.high ++ [Level.low]).map Event.tick ++ []

theorem wit_BitSegmentsShiftOneBit :
    let s := withEvents { at' .bitLow with el := 1, bitIdx := 38 } (bitWave 56 75)
    let s' := withEvents { at' .bitLow with el := 1 } (bitWave 1 1)
    (s.ph = .bitLow ∧ s.el = 1 ∧ s.bitIdx.toNat < 39 ∧ 1 ≤ 56 ∧ 56 ≤ 56 ∧ 1 ≤ 75 ∧ 75 ≤ 75 ∧ s.env = bitWave 56 75) ∧
      s'.ph = .bitLow ∧ s'.el = 1 ∧ s'.bitIdx.toNat < 39 ∧ 1 ≤ 1 ∧ s'.env = bitWave 1 1 :=
  ⟨⟨rfl, rfl, by decide, by decide, by decide, by decide, by decide, rfl⟩, rfl, rfl, by decide, by decide, rfl⟩

/-- The line of a whole attempt. -/
def attemptWave (al ah : Nat) (segs : List (Nat × Nat)) : List Event :=
  (List.replicate 3025 Level.low ++ frameWave al ah segs).map Event.tick ++ []

theorem wit_WholeFrameIsDecoded :
    let segs := List.replicate 39 (56, 75) ++ [(1, 1)]
    let s := withEvents (at' .wakeLow) (attemptWave 85 85 segs)
    s.ph = .wakeLow ∧ s.dly = 0 ∧ s.raw = 0 ∧ s.bitIdx = 0 ∧ (List.replicate 3025 Level.low).length = 3025 ∧
      85 ≤ 85 ∧ 1 ≤ 85 ∧ 85 ≤ 85 ∧ segs.length = 40 ∧ (∀ p ∈ segs, 1 ≤ p.1 ∧ p.1 ≤ 56 ∧ 1 ≤ p.2 ∧ p.2 ≤ 75) ∧
      s.env = (List.replicate 3025 Level.low ++ frameWave 85 85 segs).map Event.tick ++ [] :=
  ⟨rfl, rfl, rfl, rfl, List.length_replicate, by decide, by decide, by decide, by decide, by decide, rfl⟩
theorem wit_WholeFrame_shortest : 0 ≤ 85 ∧ 1 ≤ 1 ∧ (List.replicate 40 (1, 1)).length = 40 ∧
    ∀ p ∈ List.replicate 40 (1, 1), 1 ≤ p.1 ∧ p.1 ≤ 56 ∧ 1 ≤ p.2 ∧ p.2 ≤ 75 := by decide
theorem wit_EveryAttemptEndsInTime :
    let s := withEvents (at' .idle) ((List.replicate 8437 Level.high).map Event.tick ++ [])
    Inv s ∧ s.run = true ∧ s.ph ≠ .sleep ∧ (List.replicate 8437 Level.high).length = 8437 ∧
      s.env = (List.replicate 8437 Level.high).map Event.tick ++ [] :=
  ⟨inv_launched _, rfl, by decide, List.length_replicate, rfl⟩
theorem wit_NextAttemptEndsInTime :
    let s := withEvents (pausing 1) ((List.replicate 4008436 Level.high).map Event.tick ++ [])
    Inv s ∧ s.ph = .sleep ∧ (List.replicate 4008436 Level.high).length = 4008436 ∧
      s.env = (List.replicate 4008436 Level.high).map Event.tick ++ [] :=
  ⟨inv_pausing _, rfl, List.length_replicate, rfl⟩

end Sys2Proof.Tests
end

section
/-! Placing a table word and running it (log entry 3): what the decoder reads from a transaction word and from a phase
code, where `withFetchWord` puts each, and the step that follows. -/

namespace Sys2Proof.Proofs

open Machine Laws

/-! ## The two code spaces that use every number of their width -/

@[simp] theorem decode_host35_toNat (w : BitVec 35) : decode .host35 w.toNat = .ok (decodeHost w) := by
  simp [decode, formatWidth, w.isLt]

@[simp] theorem decode_phase3_toNat (c : BitVec 3) : decode .phase3 c.toNat = .ok (decodePhase c) := by
  simp [decode, formatWidth, c.isLt]

@[simp] theorem decodeTableWord_host35 (w : BitVec 35) : decodeTableWord 35 w.toNat = some (decodeHost w) := by
  simp [decodeTableWord, tableFormat]

@[simp] theorem decodeTableWord_phase3 (c : BitVec 3) : decodeTableWord 3 c.toNat = some (decodePhase c) := by
  simp [decodeTableWord, tableFormat]

/-! ## Where a word is placed -/

theorem withFetchWord_host35 (s : State) (w : BitVec 35) :
    s.withFetchWord 35 w.toNat = presentEvent (.host w) s := by
  simp [State.withFetchWord, tableFormat, placeCode]

theorem withFetchWord_phase3 (s : State) (c : BitVec 3) :
    s.withFetchWord 3 c.toNat = presentEvent (.tick s.pinIn) { s with ph := phaseOfCode c } := by
  simp [State.withFetchWord, tableFormat, placeCode]

/-! ## The step that takes a presented event -/

/-- A presented event is taken next, and taking it gives back the state it was presented to. -/
@[simp] theorem takeEvent_presentEvent (e : Event) (s : State) : takeEvent (presentEvent e s) = (e, s) := rfl

theorem step_presentEvent_host (w : BitVec 35) (s : State) :
    step (presentEvent (.host w) s) = exec (decodeHost w) s :=
  step_host (takeEvent_presentEvent _ _)

theorem step_presentEvent_tick (l : Level) (s : State) :
    step (presentEvent (.tick l) s) = exec (phaseInstr s.ph) (beginTick l s) :=
  step_tick (takeEvent_presentEvent _ _)

/-- Settles O34: the decoded row is the one `step` reads, from the presented word or from the placed phase, and a tick
begun with the line as last sampled leaves the capture register as it was. -/
theorem placedWordRunsNext : Obligations.PlacedWordRunsNext := by
  refine ⟨fun s w i hi => ?_, fun s c i hi => ?_⟩
  · obtain rfl : decodeHost w = i := by simpa using hi
    rw [withFetchWord_host35, step_presentEvent_host]
  · obtain rfl : decodePhase c = i := by simpa using hi
    rw [withFetchWord_phase3, step_presentEvent_tick]
    rfl

end Sys2Proof.Proofs
end

section
/-! The invariant of the block (10_state.md R37): what the sequencer's operations make of a state that meets it, one
lemma for each way a tick can go, then the tick, the host transaction and the reset. -/

namespace Sys2Proof.Proofs

open Machine Laws

/-! ## The operands of waits and counted phases -/

theorem isWait_of_waitOperands {p : Phase} {L : Level} {T : Nat} (ho : waitOperands p = some (L, T)) :
    isWait p = true ∧ T ≤ 85 := by
  cases p <;> simp only [waitOperands, Option.some.injEq, Prod.mk.injEq, reduceCtorEq] at ho <;>
    simp [isWait, ← ho.2]

/-- How many ticks a phase that counts in `DLY` lasts (R121, R122, R183), as `waitOperands` does for the waits. -/
def countedTicks : Phase → Option Nat
  | .wakeLow => some tWakeLow
  | .wakeHigh => some tWakeHigh
  | .sleep => some tSleep
  | .idle => none
  | .ackLow => none
  | .ackHigh => none
  | .bitLow => none
  | .bitHigh => none

theorem countedTicks_cases {p : Phase} {n : Nat} (hc : countedTicks p = some n) :
    p = .wakeLow ∧ n = 3000 ∨ p = .wakeHigh ∧ n = 25 ∨ p = .sleep ∧ n = 4000000 := by
  cases p <;> simp [countedTicks] at hc <;> simp [hc]

/-- A shift adds at most one bit to a partial frame. -/
theorem shiftIn_toNat_lt {raw : BitVec 40} {n : Nat} (h : raw.toNat < 2 ^ n) (b : Bool) :
    (shiftIn raw b).toNat < 2 ^ (n + 1) := by
  have hmod : raw.toNat % 2 ^ 39 ≤ raw.toNat := Nat.mod_le _ _
  have hb : b.toNat ≤ 1 := b.toNat_le
  rw [shiftIn_toNat, Nat.pow_succ]
  omega

section
variable {s : State} (l : Level)

/-! ## What the invariant says of a group of phases -/

/-- Before the first bit of an attempt the sampler is launched and nothing is received. -/
theorem inv_beforeBits (h : Inv s)
    (hp : s.ph = .wakeLow ∨ s.ph = .wakeHigh ∨ s.ph = .ackLow ∨ s.ph = .ackHigh) :
    s.run = true ∧ s.raw = 0 ∧ s.bitIdx = 0 :=
  ⟨h.launched (by rcases hp with hp | hp | hp | hp <;> simp [hp]), h.noBitYet hp⟩

/-- In a wait the sampler is launched and only `BITIDX` bits have been received. -/
theorem inv_inWait (h : Inv s) (hw : isWait s.ph = true) :
    s.run = true ∧ s.raw.toNat < 2 ^ s.bitIdx.toNat := by
  refine ⟨h.launched fun hp => by simp [hp, isWait] at hw, ?_⟩
  cases hp : s.ph <;> simp only [hp, isWait, reduceCtorEq] at hw
  case bitLow => exact h.partialFrame (.inl hp)
  case bitHigh => exact h.partialFrame (.inr hp)
  all_goals
    obtain ⟨hraw, hidx⟩ := h.noBitYet (by simp [hp])
    simp [hraw, hidx]

theorem inv_dly_lt (h : Inv s) {n : Nat} (hc : countedTicks s.ph = some n) : s.dly.toNat < n := by
  rcases countedTicks_cases hc with ⟨hp, rfl⟩ | ⟨hp, rfl⟩ | ⟨hp, rfl⟩
  · exact Nat.lt_succ_of_le (h.wakeLowDelay hp)
  · exact Nat.lt_succ_of_le (h.wakeHighDelay hp)
  · exact Nat.lt_succ_of_le (h.sleepDelay hp)

/-! ## Ticks that stay in their phase -/

theorem inv_beginTick (h : Inv s) (hp : s.ph ≠ .sleep) : Inv (beginTick l s) :=
  { h with
    strobeTime := by simp [hp]
    strobeKind := by simp }

theorem inv_setElapsed (h : Inv s) {L : Level} {T : Nat} (ho : waitOperands s.ph = some (L, T)) {e : BitVec 8}
    (he : 1 ≤ e.toNat) (heT : e.toNat ≤ T) : Inv { beginTick l s with el := e } := by
  obtain ⟨hw, hT⟩ := isWait_of_waitOperands ho
  have hsleep : s.ph ≠ .sleep := fun hp => by simp [hp, isWait] at hw
  exact { inv_beginTick l h hsleep with
    fresh := fun hp => by simp [show s.ph = .idle from hp, isWait] at hw
    ackElapsed := fun _ => heT.trans hT
    bitLowElapsed := fun hp => by simp_all [waitOperands]
    bitHighElapsed := fun hp => by simp_all [waitOperands]
    chainedElapsed := fun _ => he
    elapsedBound := heT.trans hT }

/-- A delay that was counted up is not 0, so the event of the tick before is low again. -/
theorem inv_setDelay (h : Inv s) {n : Nat} (hc : countedTicks s.ph = some n) {d : BitVec 22} (hd : 1 ≤ d.toNat)
    (hdn : d.toNat < n) : Inv { beginTick l s with dly := d } :=
  have hcases := countedTicks_cases hc
  { h with
    fresh := fun hp => by simp_all
    wakeLowDelay := fun hp => by simp_all; omega
    wakeHighDelay := fun hp => by simp_all; omega
    sleepDelay := fun hp => by simp_all; omega
    strobeTime := iff_of_false (by simp) fun hp => by simp [show d = 0 from hp.2] at hd
    strobeKind := by simp }

/-! ## Ticks that move to the next phase -/

theorem inv_startAttempt (h : Inv s) (hr : s.run = true) : Inv (startAttempt (beginTick l s)) := by
  constructor <;> simp [hr, h.elapsedBound]

theorem inv_enterWakeHigh (h : Inv s) (hp : s.ph = .wakeLow) : Inv (enterWakeHigh (beginTick l s)) := by
  obtain ⟨hrun, hraw, hidx⟩ := inv_beforeBits h (by simp [hp])
  constructor <;> simp [hrun, hraw, hidx, h.elapsedBound]

theorem inv_releaseLine (h : Inv s) (hp : s.ph = .wakeHigh) : Inv (releaseLine (beginTick l s)) := by
  obtain ⟨hrun, hraw, hidx⟩ := inv_beforeBits h (by simp [hp])
  constructor <;> simp [hrun, hraw, hidx]

theorem inv_enterAckHigh (h : Inv s) (hp : s.ph = .ackLow) : Inv (enterWait .ackHigh (beginTick l s)) := by
  obtain ⟨hrun, hraw, hidx⟩ := inv_beforeBits h (by simp [hp])
  constructor <;> simp [hrun, hraw, hidx]

/-- The low wait of a bit begins with a partial frame in `RAW`. -/
theorem inv_enterBitLow (hr : s.run = true) {raw : BitVec 40} {idx : BitVec 6} (hidx : idx.toNat ≤ 39)
    (hraw : raw.toNat < 2 ^ idx.toNat) :
    Inv (enterWait .bitLow { beginTick l s with raw := raw, bitIdx := idx }) := by
  constructor <;> simp [hr, hidx, hraw]

theorem inv_enterBitHigh (h : Inv s) (hp : s.ph = .bitLow) : Inv (enterWait .bitHigh (beginTick l s)) := by
  obtain ⟨hrun, hraw⟩ := inv_inWait h (by simp [hp, isWait])
  constructor <;> simp [hrun, hraw, h.bitIndexBound]

/-! ## Ticks that end the attempt, and the capture of a bit -/

theorem inv_abortTimeout (h : Inv s) (hw : isWait s.ph = true) : Inv (abortTimeout (beginTick l s)) := by
  obtain ⟨hrun, hraw⟩ := inv_inWait h hw
  constructor <;> simp [hrun, hraw, h.elapsedBound, h.bitIndexBound]

theorem inv_evaluate (h : Inv s) (hr : s.run = true) (hidx : s.bitIdx = 39) (raw : BitVec 40) :
    Inv (evaluate { beginTick l s with raw := raw }) := by
  rcases evaluate_cases { beginTick l s with raw := raw } with ⟨hv, hs⟩ | ⟨hv, hs⟩ <;> rw [hs]
  · constructor <;> simp [hr, hidx, show frameValid raw = true from hv, h.elapsedBound]
  · constructor <;> simp [hr, hidx, show frameValid raw = false from hv, h.elapsedBound]

/-- Bit 39 completes the frame; before it one more bit is in and the index has not passed 39. -/
theorem inv_receiveBit (h : Inv s) (hp : s.ph = .bitHigh) (r : Nat) : Inv (receiveBit r (beginTick l s)) := by
  obtain ⟨hrun, hraw⟩ := inv_inWait h (by simp [hp, isWait])
  rcases receiveBit_cases r (beginTick l s) with ⟨hidx, hs⟩ | ⟨hidx, hs⟩ <;> rw [hs]
  · exact inv_evaluate l h hrun (BitVec.eq_of_toNat_eq hidx) _
  · rw [beginTick_bitIdx] at hidx
    have hlt : s.bitIdx.toNat < 39 := Nat.lt_of_le_of_ne h.bitIndexBound hidx
    have hnext : (s.bitIdx + 1).toNat = s.bitIdx.toNat + 1 := BitVec.toNat_add_of_lt (by simp; omega)
    exact inv_enterBitLow l hrun (hnext ▸ hlt) (hnext ▸ shiftIn_toNat_lt hraw _)

/-! ## One tick -/

theorem inv_countTick (h : Inv s) {n : Nat} (hc : countedTicks s.ph = some n) {leave : State → State}
    (hleave : Inv (leave (beginTick l s))) : Inv (countTick n leave (beginTick l s)) := by
  rcases countTick_cases n leave (beginTick l s) with ⟨-, hs⟩ | ⟨hne, hs⟩ <;> rw [hs]
  · exact hleave
  · rw [beginTick_dly] at hne ⊢
    have hlt := inv_dly_lt h hc
    have hn : n ≤ 4000000 := by
      rcases countedTicks_cases hc with ⟨-, rfl⟩ | ⟨-, rfl⟩ | ⟨-, rfl⟩ <;> decide
    have hnext : (s.dly + 1).toNat = s.dly.toNat + 1 := BitVec.toNat_add_of_lt (by simp; omega)
    exact inv_setDelay l h hc (by omega) (by omega)

theorem inv_runWait (h : Inv s) {L : Level} {T : Nat} (ho : waitOperands s.ph = some (L, T))
    {onDone : Nat → State → State} (hdone : Inv (onDone s.el.toNat (beginTick l s))) :
    Inv (runWait L T onDone (beginTick l s)) := by
  obtain ⟨hw, hT⟩ := isWait_of_waitOperands ho
  rcases runWait_cases L T onDone (beginTick l s) with ⟨-, hs⟩ | ⟨-, -, hs⟩ | ⟨-, ht, hs⟩ <;> rw [hs]
  · exact hdone
  · exact inv_abortTimeout l h hw
  · rw [beginTick_el] at ht ⊢
    have hnext : (s.el + 1).toNat = s.el.toNat + 1 := BitVec.toNat_add_of_lt (by simp; omega)
    exact inv_setElapsed l h ho (by omega) (by omega)

theorem inv_tickPhase (h : Inv s) : Inv (tickPhase s.ph (beginTick l s)) := by
  cases hp : s.ph with
  | idle =>
    cases hr : s.run <;> simp only [tickPhase, beginTick_run, hr]
    · exact inv_beginTick l h (by simp [hp])
    · exact inv_startAttempt l h hr
  | wakeLow => exact inv_countTick l h (by rw [hp]; rfl) (inv_enterWakeHigh l h hp)
  | wakeHigh => exact inv_countTick l h (by rw [hp]; rfl) (inv_releaseLine l h hp)
  | ackLow => exact inv_runWait l h (by rw [hp]; rfl) (inv_enterAckHigh l h hp)
  | ackHigh =>
    obtain ⟨hrun, hraw⟩ := inv_inWait h (by simp [hp, isWait])
    exact inv_runWait l h (by rw [hp]; rfl) (inv_enterBitLow l hrun h.bitIndexBound hraw)
  | bitLow => exact inv_runWait l h (by rw [hp]; rfl) (inv_enterBitHigh l h hp)
  | bitHigh => exact inv_runWait l h (by rw [hp]; rfl) (inv_receiveBit l h hp _)
  | sleep => exact inv_countTick l h (by rw [hp]; rfl) (inv_startAttempt l h (h.launched (by simp [hp])))

/-! ## What hosts, resets and the surroundings do -/

theorem inv_surroundings (h : Inv s) (es : List Event) (n : Nat) : Inv { s with env := es, draws := n } :=
  { h with }

theorem inv_hostReturn (h : Inv s) (v : Word) : Inv (hostReturn v s) :=
  { h with }

theorem inv_launch (h : Inv s) : Inv { s with run := true } :=
  { h with launched := fun _ => rfl }

theorem inv_applyReset (s : State) : Inv (applyReset s) := by
  constructor <;> simp

end

/-- Settles O39: whatever event the step takes, a lemma above says that its effect keeps the invariant. -/
theorem stepKeepsInvariant : Obligations.StepKeepsInvariant := by
  intro s t h hstep
  obtain ⟨⟨es, n, hs1⟩, hcases⟩ := step_next_cases rfl hstep
  have h1 : Inv (takeEvent s).2 := hs1 ▸ inv_surroundings h es n
  rcases hcases with ⟨l, -, rfl⟩ | ⟨-, rfl⟩ | ⟨w, -, ⟨d, -, -, rfl⟩ | ⟨-, rfl | ⟨v, rfl⟩⟩⟩
  · exact inv_tickPhase l h1
  · exact inv_applyReset _
  · exact inv_launch h1
  · exact h1
  · exact inv_hostReturn h1 v

/-- Settles O38: a reset in any state leaves the block in the invariant, and resetting the reset state gives it back. -/
theorem resetMeetsInvariant : Obligations.ResetMeetsInvariant :=
  inv_applyReset State.reset

end Sys2Proof.Proofs
end

section
/-! The reset table, the pin drive, what moves `RUN` and `PH`, and the phases that do not look at the sample
(10_state.md R21, R22, R30, R31, R38). -/

namespace Sys2Proof.Proofs

open Machine Laws

/-- Settles O36: each element of the reset table is a field of `State.reset`. -/
theorem resetStateIsAsTabled : Obligations.ResetStateIsAsTabled :=
  ⟨rfl, rfl, rfl, rfl, rfl, rfl, rfl, rfl, rfl, rfl, rfl⟩

/-- Settles O37, phase by phase. -/
theorem pinDriveFollowsPhase : Obligations.PinDriveFollowsPhase :=
  ⟨fun p => by cases p <;> simp [pinOe], rfl, rfl⟩

/-! ## `RUN` -/

theorem tickPhase_run (p : Phase) (l : Level) (s : State) : (tickPhase p (beginTick l s)).run = s.run := by
  obtain ⟨hrun, -⟩ := tickPhase_surroundings p (beginTick l s)
  exact hrun

/-- Settles O44: of the ways a step can go only the launch and the reset write `RUN`, and an unlaunched sampler's tick
of `IDLE` moves nothing. -/
theorem runSetOnlyByStart : Obligations.RunSetOnlyByStart := by
  refine ⟨fun s s1 t e he hstep => ?_, fun s t hrun hph hstep => ?_⟩
  · obtain ⟨⟨es, n, rfl⟩, hcases⟩ := step_next_cases he hstep
    rcases hcases with ⟨l, rfl, rfl⟩ | ⟨rfl, rfl⟩ | ⟨w, rfl, ⟨d, hd, hr, rfl⟩ | ⟨hn, rfl | ⟨v, rfl⟩⟩⟩
    · simp +contextual [tickPhase_run]
    · simp
    · simp [hd]
    · simp +contextual [hn]
    · simp +contextual [hn]
  · obtain ⟨⟨es, n, hs1⟩, hcases⟩ := step_next_cases rfl hstep
    rw [hs1] at hcases
    rcases hcases with ⟨l, -, rfl⟩ | ⟨-, rfl⟩ | ⟨w, -, ⟨d, -, -, rfl⟩ | ⟨-, rfl | ⟨v, rfl⟩⟩⟩
    · simp [hph, hrun, tickPhase]
    · rfl
    · exact hph
    · exact hph
    · exact hph

/-! ## `PH` -/

theorem evaluate_ph (s : State) : (evaluate s).ph = .sleep := by
  rcases evaluate_cases s with ⟨-, h⟩ | ⟨-, h⟩ <;> simp [h]

theorem receiveBit_ph (r : Nat) (s : State) :
    (receiveBit r s).ph = .sleep ∨ (receiveBit r s).ph = .bitLow := by
  rcases receiveBit_cases r s with ⟨-, h⟩ | ⟨-, h⟩ <;> rw [h]
  · exact .inl (evaluate_ph _)
  · exact .inr rfl

/-- The edges along which a tick moves the sequencer (30_encoding.md R81). -/
def phaseEdges : List (Phase × Phase) :=
  [(.idle, .wakeLow), (.wakeLow, .wakeHigh), (.wakeHigh, .ackLow), (.ackLow, .ackHigh), (.ackLow, .sleep),
   (.ackHigh, .bitLow), (.ackHigh, .sleep), (.bitLow, .bitHigh), (.bitLow, .sleep), (.bitHigh, .bitLow),
   (.bitHigh, .sleep), (.sleep, .wakeLow)]

theorem wait_to_sleep_mem_phaseEdges {p : Phase} (hw : isWait p = true) : (p, .sleep) ∈ phaseEdges := by
  cases p <;> simp_all [isWait, phaseEdges]

/-- A tick of the phase `PH` names keeps it or follows an edge of the sequence. -/
theorem tickPhase_ph (s : State) :
    (tickPhase s.ph s).ph = s.ph ∨ (s.ph, (tickPhase s.ph s).ph) ∈ phaseEdges := by
  refine tickPhase_cases (P := fun t => t.ph = s.ph ∨ (s.ph, t.ph) ∈ phaseEdges) s.ph s ?idle
    (fun _ => .inl rfl) ?_ ?_ ?_ (fun _ => .inl rfl) (fun hw => .inr (wait_to_sleep_mem_phaseEdges hw))
    ?_ ?_ ?_ ?endsBitHigh <;> intro hp
  case idle => cases hr : s.run <;> simp [hp, phaseEdges]
  case endsBitHigh => rcases receiveBit_ph s.el.toNat s with h | h <;> simp [hp, h, phaseEdges]
  all_goals simp [hp, phaseEdges]

/-- Settles O45: host transactions do not write `PH`, and a tick moves it as `tickPhase_ph` says. -/
theorem phaseMovesAlongTheSequence : Obligations.PhaseMovesAlongTheSequence := by
  intro s s1 t e he hstep
  obtain ⟨⟨es, n, rfl⟩, hcases⟩ := step_next_cases he hstep
  rcases hcases with ⟨l, rfl, rfl⟩ | ⟨rfl, rfl⟩ | ⟨w, rfl, ⟨d, -, -, rfl⟩ | ⟨-, rfl | ⟨v, rfl⟩⟩⟩
  · exact ⟨nofun, fun _ _ => tickPhase_ph (beginTick l { s with env := es, draws := n })⟩
  · exact ⟨nofun, nofun⟩
  · exact ⟨fun _ _ => rfl, nofun⟩
  · exact ⟨fun _ _ => rfl, nofun⟩
  · exact ⟨fun _ _ => rfl, nofun⟩

/-! ## The capture register -/

theorem countTick_pinIn (n : Nat) {leave : State → State} (s : State) (l : Level)
    (hleave : leave { s with pinIn := l } = { leave s with pinIn := l }) :
    countTick n leave { s with pinIn := l } = { countTick n leave s with pinIn := l } := by
  by_cases h : s.dly.toNat = n - 1 <;> simp [countTick, h, hleave]

/-- Outside the waits a tick carries the capture register along and does nothing else with it. -/
theorem tickPhase_pinIn {p : Phase} (hp : isWait p = false) (s : State) (l : Level) :
    tickPhase p { s with pinIn := l } = { tickPhase p s with pinIn := l } := by
  cases p <;> simp only [isWait, reduceCtorEq] at hp
  case idle => cases hr : s.run <;> simp [tickPhase, hr, startAttempt]
  case wakeLow => exact countTick_pinIn _ s l rfl
  case wakeHigh => exact countTick_pinIn _ s l rfl
  case sleep => exact countTick_pinIn _ s l rfl

/-- Settles O48: the two ticks run the same phase on states that differ in the capture register only. -/
theorem sampleIgnoredOutsideWaits : Obligations.SampleIgnoredOutsideWaits := by
  intro s t t' l l' rest hp ht ht'
  rw [step_tick_next (takeEvent_cons _ _ rest rfl)] at ht ht'
  cases ht
  cases ht'
  exact tickPhase_pinIn hp (beginTick l { s with env := rest }) l'

end Sys2Proof.Proofs
end

section
/-! The getters' rendering (10_state.md R36): the scale and the rounding of `f32`, the fields of the pattern it packs,
and why no finite binary32 value lies nearer. -/

namespace Sys2Proof.Proofs

open Machine

/-! ## Rounding -/

/-- Ten times the distance of `x` from `a / 10`. -/
def distTenths (a x : Nat) : Nat := (10 * (x : Int) - a).natAbs

/-- Distances keep their proportions at every scale. -/
theorem distTenths_mul (a x u : Nat) : distTenths (a * u) (x * u) = distTenths a x * u := by
  rw [distTenths, distTenths, ← Int.natAbs_natCast u, ← Int.natAbs_mul, Int.natAbs_natCast]
  push_cast
  ring_nf

/-- Rounding misses by at most half the divisor, and by exactly half only with an even result. -/
theorem roundHalfEven_error (a : Nat) :
    distTenths a (roundHalfEven a 10) ≤ 5 ∧
      (distTenths a (roundHalfEven a 10) = 5 → roundHalfEven a 10 % 2 = 0) := by
  unfold roundHalfEven distTenths
  dsimp only
  split_ifs <;> omega

/-- No integer is nearer to `a / 10` than the rounded one, and where another is equally near the rounded one is even. -/
theorem roundHalfEven_nearest (a x : Nat) :
    distTenths a (roundHalfEven a 10) ≤ distTenths a x ∧
      (distTenths a x = distTenths a (roundHalfEven a 10) → x ≠ roundHalfEven a 10 →
        roundHalfEven a 10 % 2 = 0) := by
  obtain ⟨herr, htie⟩ := roundHalfEven_error a
  generalize roundHalfEven a 10 = m at herr htie ⊢
  unfold distTenths at *
  omega

theorem le_roundHalfEven {a b : Nat} (h : 10 * b ≤ a) : b ≤ roundHalfEven a 10 := by
  obtain ⟨herr, -⟩ := roundHalfEven_error a
  unfold distTenths at herr
  omega

theorem roundHalfEven_le {a b : Nat} (h : a ≤ 10 * b) : roundHalfEven a 10 ≤ b := by
  obtain ⟨herr, -⟩ := roundHalfEven_error a
  unfold distTenths at herr
  omega

/-! ## The scale -/

/-- The scale found is the least that reaches `2 ^ 23`, when one within the fuel does. -/
theorem binaryScale_spec (num den fuel k : Nat) (hk : k = 0 ∨ num * 2 ^ (k - 1) < den * 2 ^ 23)
    (h : den * 2 ^ 23 ≤ num * 2 ^ (k + fuel)) :
    let r := binaryScale num den fuel k
    r ≤ k + fuel ∧ den * 2 ^ 23 ≤ num * 2 ^ r ∧ (r = 0 ∨ num * 2 ^ (r - 1) < den * 2 ^ 23) := by
  induction fuel generalizing k with
  | zero => exact ⟨Nat.le_refl _, h, hk⟩
  | succ fuel ih =>
    rw [binaryScale]
    split_ifs with hreached
    · exact ⟨Nat.le_add_right _ _, hreached, hk⟩
    · have := ih (k + 1) (.inr (Nat.lt_of_not_le hreached)) (by rwa [Nat.add_right_comm, Nat.add_assoc])
      simpa [Nat.add_right_comm, Nat.add_assoc] using this

/-- The scale of a Reading's quotient brings it to 24 significant bits. -/
theorem binaryScale_reading {n : Nat} (h0 : n ≠ 0) (hn : n < 65536) :
    let k := binaryScale n 10 40 0
    k ≤ 40 ∧ 10 * 2 ^ 23 ≤ n * 2 ^ k ∧ n * 2 ^ k ≤ 10 * 2 ^ 24 := by
  obtain ⟨hle, hlow, hup⟩ := binaryScale_spec n 10 40 0 (.inl rfl) (by omega)
  generalize binaryScale n 10 40 0 = k at *
  cases k with
  | zero => omega
  | succ k =>
    rw [Nat.add_sub_cancel] at hup
    have hdouble : n * 2 ^ (k + 1) = n * 2 ^ k * 2 := by rw [Nat.pow_succ, Nat.mul_assoc]
    dsimp only
    omega

/-! ## The packed pattern -/

/-- The pattern with exponent field `e` for a significand `m` from `2 ^ 23` to `2 ^ 24`; at `2 ^ 24` the sum carries
into the exponent field. -/
def packBinary32 (neg : Bool) (e m : Nat) : Word :=
  BitVec.ofNat 32 ((if neg then 2 ^ 31 else 0) + e * 2 ^ 23 + (m - 2 ^ 23))

theorem f32_eq_packBinary32 (neg : Bool) {n : Nat} (h0 : n ≠ 0) :
    f32 neg n 10 =
      packBinary32 neg (150 - binaryScale n 10 40 0) (roundHalfEven (n * 2 ^ binaryScale n 10 40 0) 10) := by
  simp [f32, h0, packBinary32]

section
variable (neg : Bool) {e m : Nat} (he : 1 ≤ e) (he' : e ≤ 253) (hm : 2 ^ 23 ≤ m) (hm' : m ≤ 2 ^ 24)
include he' hm'

theorem packBinary32_toNat :
    (packBinary32 neg e m).toNat = (if neg then 2 ^ 31 else 0) + e * 2 ^ 23 + (m - 2 ^ 23) := by
  rw [packBinary32, BitVec.toNat_ofNat]
  exact Nat.mod_eq_of_lt (by cases neg <;> simp <;> omega)

theorem packBinary32_sign : (packBinary32 neg e m).getLsbD 31 = neg := by
  rw [← BitVec.testBit_toNat, packBinary32_toNat neg he' hm', Nat.testBit_eq_decide_div_mod_eq]
  cases neg <;> simp <;> omega

/-- A significand of `2 ^ 24` carries one into the exponent field. -/
theorem packBinary32_exponentField :
    ((packBinary32 neg e m).extractLsb' 23 8).toNat = e + (m - 2 ^ 23) / 2 ^ 23 := by
  rw [BitVec.extractLsb'_toNat, Nat.shiftRight_eq_div_pow, packBinary32_toNat neg he' hm']
  split_ifs <;> omega

theorem packBinary32_fractionField :
    ((packBinary32 neg e m).extractLsb' 0 23).toNat = (m - 2 ^ 23) % 2 ^ 23 := by
  rw [BitVec.extractLsb'_toNat, Nat.shiftRight_zero, packBinary32_toNat neg he' hm']
  split_ifs <;> omega

include hm

theorem packBinary32_lsb (h : m % 2 = 0) : (packBinary32 neg e m).getLsbD 0 = false := by
  rw [← BitVec.testBit_toNat, packBinary32_toNat neg he' hm', Nat.testBit_zero]
  cases neg <;> simp <;> omega

include he

theorem packBinary32_scaled : binary32Scaled (packBinary32 neg e m) = m * 2 ^ (e - 1) := by
  rw [binary32Scaled, packBinary32_exponentField neg he' hm', packBinary32_fractionField neg he' hm',
    if_neg (by omega)]
  rcases Nat.lt_or_eq_of_le hm' with hlt | rfl
  · have hfrac : m - 2 ^ 23 < 2 ^ 23 := by omega
    rw [Nat.div_eq_of_lt hfrac, Nat.mod_eq_of_lt hfrac, Nat.add_zero, Nat.add_sub_cancel' hm]
  · calc (2 ^ 23 + 0) * 2 ^ (e + 1 - 1) = 2 ^ 23 * 2 ^ (e - 1 + 1) := by rw [Nat.sub_add_cancel he]; rfl
      _ = 2 ^ 24 * 2 ^ (e - 1) := by rw [Nat.pow_succ]; omega

end

/-! ## The binary32 values -/

/-- At every scale a finite binary32 value is on the grid, or below the significands of 24 bits. -/
theorem binary32Scaled_cases (x : Word) (j : Nat) :
    (∃ m, binary32Scaled x = m * 2 ^ j) ∨ binary32Scaled x < 2 ^ 23 * 2 ^ j := by
  have hfrac : (x.extractLsb' 0 23).toNat < 2 ^ 23 := BitVec.isLt _
  simp only [binary32Scaled]
  generalize (x.extractLsb' 23 8).toNat = e
  generalize (x.extractLsb' 0 23).toNat = f at *
  have hone : 1 ≤ 2 ^ j := Nat.one_le_two_pow
  split_ifs with h0
  · exact .inr (by omega)
  · rcases Nat.lt_or_ge (e - 1) j with hlt | hge
    · right
      have hpow : 2 * 2 ^ (e - 1) ≤ 2 ^ j := by
        rw [← Nat.pow_succ']
        exact Nat.pow_le_pow_right (by decide) hlt
      calc (2 ^ 23 + f) * 2 ^ (e - 1) < (2 ^ 23 * 2) * 2 ^ (e - 1) :=
            Nat.mul_lt_mul_of_pos_right (by omega) (Nat.two_pow_pos _)
        _ = 2 ^ 23 * (2 * 2 ^ (e - 1)) := Nat.mul_assoc ..
        _ ≤ 2 ^ 23 * 2 ^ j := Nat.mul_le_mul_left _ hpow
    · exact .inl ⟨(2 ^ 23 + f) * 2 ^ (e - 1 - j), by rw [Nat.mul_assoc, ← Nat.pow_add, Nat.sub_add_cancel hge]⟩

/-! ## Why nothing lies nearer -/

/-- A value below the 24-bit significands of a scale is farther away than the least of them. -/
theorem distTenths_lt_of_below {a u x : Nat} (ha : 10 * 2 ^ 23 ≤ a) (hx : x < 2 ^ 23 * u) :
    distTenths (a * u) (2 ^ 23 * u) < distTenths (a * u) x := by
  have hle := Nat.mul_le_mul_right u ha
  unfold distTenths
  omega

/-- With `a / 10` of 24 bits, its rounded significand gives the nearest binary32 value at the scale `2 ^ j`. -/
theorem rounded_nearest_binary32 {a : Nat} (ha : 10 * 2 ^ 23 ≤ a) (j : Nat) (x : Word) :
    let w := roundHalfEven a 10 * 2 ^ j
    distTenths (a * 2 ^ j) w ≤ distTenths (a * 2 ^ j) (binary32Scaled x) ∧
      (distTenths (a * 2 ^ j) (binary32Scaled x) = distTenths (a * 2 ^ j) w → binary32Scaled x ≠ w →
        roundHalfEven a 10 % 2 = 0) := by
  dsimp only
  rcases binary32Scaled_cases x j with ⟨m, hx⟩ | hx
  · obtain ⟨hle, htie⟩ := roundHalfEven_nearest a m
    rw [hx, distTenths_mul, distTenths_mul]
    exact ⟨Nat.mul_le_mul_right _ hle, fun heq hne =>
      htie (Nat.eq_of_mul_eq_mul_right (Nat.two_pow_pos j) heq) fun h => hne (h ▸ rfl)⟩
  · have hle : distTenths (a * 2 ^ j) (roundHalfEven a 10 * 2 ^ j) ≤ distTenths (a * 2 ^ j) (2 ^ 23 * 2 ^ j) := by
      rw [distTenths_mul, distTenths_mul]
      exact Nat.mul_le_mul_right _ (roundHalfEven_nearest a (2 ^ 23)).1
    have hlt := hle.trans_lt (distTenths_lt_of_below ha hx)
    exact ⟨hlt.le, fun heq => absurd heq hlt.ne'⟩

/-- The obligation's distance, at the scale `2 ^ (149 - k)`. -/
theorem natAbs_eq_distTenths {k : Nat} (hk : k ≤ 149) (n x : Nat) :
    ((10 * x : Int) - n * 2 ^ 149).natAbs = distTenths (n * 2 ^ k * 2 ^ (149 - k)) x := by
  rw [distTenths, Nat.mul_assoc, ← Nat.pow_add, Nat.add_sub_cancel' hk]
  push_cast
  rfl

theorem binary32Scaled_f32_zero (neg : Bool) : binary32Scaled (f32 neg 0 10) = 0 := by
  cases neg <;> rfl

/-- Settles O22: a Reading of 0 is a signed zero; any other is packed from the rounded significand, which is nearest on
its grid, and every value off the grid lies farther below. -/
theorem renderingIsNearestBinary32 : Obligations.RenderingIsNearestBinary32 := by
  intro neg n hn
  by_cases h0 : n = 0
  · subst h0
    refine ⟨by cases neg <;> rfl, by cases neg <;> decide, fun x _ => ?_⟩
    simp +contextual [binary32Scaled_f32_zero]
  · obtain ⟨hk, hlow, hup⟩ := binaryScale_reading h0 hn
    rw [f32_eq_packBinary32 neg h0]
    generalize binaryScale n 10 40 0 = k at *
    have hm := le_roundHalfEven hlow
    have hm' := roundHalfEven_le hup
    have he' : 150 - k ≤ 253 := by omega
    have hval := packBinary32_scaled neg (by omega) he' hm hm'
    rw [show 150 - k - 1 = 149 - k by omega] at hval
    have hexp := packBinary32_exponentField neg he' hm'
    refine ⟨packBinary32_sign neg he' hm', by omega, fun x _ => ?_⟩
    dsimp only
    rw [hval, natAbs_eq_distTenths (show k ≤ 149 by omega), natAbs_eq_distTenths (show k ≤ 149 by omega)]
    obtain ⟨hle, htie⟩ := rounded_nearest_binary32 hlow (149 - k) x
    exact ⟨hle, fun heq hne => packBinary32_lsb neg he' hm hm' (htie heq hne)⟩

/-- Settles O23: the definition computes each of the patterns. -/
theorem renderingExamples : Obligations.RenderingExamples :=
  ⟨rfl, rfl, rfl, rfl, rfl, rfl, rfl, rfl, rfl, rfl⟩

end Sys2Proof.Proofs
end

section
/-! The Raw Register as bytes and bits (20_memory.md R51, R52), the words of the host window (R53, R55), and the one way
the Reading is replaced (R57). -/

namespace Sys2Proof.Proofs

open Machine Laws

/-! ## The Raw Register as bytes -/

theorem rawByte_toNat (raw : BitVec 40) (i : Nat) :
    (rawByte raw i).toNat = raw.toNat / 2 ^ (32 - 8 * i) % 256 := by
  rw [rawByte, BitVec.extractLsb'_toNat, Nat.shiftRight_eq_div_pow]

theorem humField_toNat (raw : BitVec 40) : (humField raw).toNat = raw.toNat / 2 ^ 24 % 2 ^ 16 := by
  rw [humField, BitVec.extractLsb'_toNat, Nat.shiftRight_eq_div_pow]

theorem magField_toNat (raw : BitVec 40) : (magField raw).toNat = raw.toNat / 2 ^ 8 % 2 ^ 15 := by
  rw [magField, BitVec.extractLsb'_toNat, Nat.shiftRight_eq_div_pow]

theorem signField_eq_true_iff (raw : BitVec 40) : signField raw = true ↔ raw.toNat / 2 ^ 23 % 2 = 1 := by
  rw [signField, BitVec.getLsbD, Nat.testBit_eq_decide_div_mod_eq, decide_eq_true_iff]

/-- Settles O21: bytes and fields are quotients and remainders of the register's number by powers of two. -/
theorem fieldsAreBigEndianBytes : Obligations.FieldsAreBigEndianBytes := by
  intro raw
  simp only [rawByte_toNat, humField_toNat, magField_toNat, signField_eq_true_iff]
  have hraw := raw.isLt
  refine ⟨?_, ?_, ?_, rfl⟩
  · omega
  · omega
  · split_ifs <;> omega

/-! ## The order of the received bits -/

theorem rawByte_getLsbD (raw : BitVec 40) (i : Nat) {j : Nat} (hj : j < 8) :
    (rawByte raw i).getLsbD j = raw.getLsbD (32 - 8 * i + j) := by
  simp [rawByte, hj]

/-- The latest bit of a list lies lowest; above the list the cleared register shows. -/
theorem packBits_getLsbD (bits : List Bool) {i : Nat} (hi : i < 40) :
    (packBits bits).getLsbD i = bits.reverse[i]?.getD false := by
  induction bits using List.reverseRecOn generalizing i with
  | nil => simp [packBits]
  | append_singleton bits b ih =>
    have hpack : packBits (bits ++ [b]) = shiftIn (packBits bits) b := List.foldl_concat ..
    rw [hpack, shiftIn_getLsbD, List.reverse_concat]
    cases i with
    | zero => rfl
    | succ i => simp [hi, ih (Nat.lt_of_succ_lt hi)]

/-- Settles O30: bit `39 - k` of the full register is the `k`-th of the list, and byte `k / 8` shows it as bit
`7 - k % 8`. -/
theorem packedBitsLieMsbFirst : Obligations.PackedBitsLieMsbFirst := by
  intro bits hlen k hk
  have hbit : some ((packBits bits).getLsbD (39 - k)) = bits[k]? := by
    rw [packBits_getLsbD bits (by omega), List.getElem?_reverse (by omega),
      show bits.length - 1 - (39 - k) = k by omega, List.getElem?_eq_getElem (by omega), Option.getD_some]
  refine ⟨hbit, ?_⟩
  rw [rawByte_getLsbD _ _ (by omega), show 32 - 8 * (k / 8) + (7 - k % 8) = 39 - k by omega, hbit]

/-! ## The words of the host window -/

theorem hostWord_write (we : BitVec 1) (addr : BitVec 2) (d : BitVec 32) :
    (hostWord we addr d).getLsbD 34 = we.getLsbD 0 :=
  hostWord_getLsbD we addr d 34

theorem hostWord_addr (we : BitVec 1) (addr : BitVec 2) (d : BitVec 32) :
    (hostWord we addr d).extractLsb' 32 2 = addr := by
  refine BitVec.eq_of_getLsbD_eq fun i hi => ?_
  simp [hostWord_getLsbD, hi]

/-- A read transaction completes with the window's word, whatever its data. -/
theorem exec_decodeHost_read (idx : BitVec 2) (d : BitVec 32) (s : State) :
    exec (decodeHost (hostWord 0#1 idx d)) s = .next (hostReturn (windowWord idx s) s) := by
  have hidx : idx = 0#2 ∨ idx = 1#2 ∨ idx = 2#2 ∨ idx = 3#2 := by revert idx; decide
  rcases hidx with rfl | rfl | rfl | rfl <;> simp only [decodeHost, hostWord_write, hostWord_addr] <;> rfl

/-- Settles O8: every word of the window is read by `exec_decodeHost_read`, and the window lays out its four words. -/
theorem windowReadsReturnTheirWord : Obligations.WindowReadsReturnTheirWord := fun idx d s =>
  ⟨exec_decodeHost_read idx d s, windowWord_ctrl s, windowWord_status s, windowWord_humidity s,
    windowWord_temperature s⟩

/-! ## How the Reading changes -/

/-- The two states hold the same Reading. -/
def sameReading (s t : State) : Prop :=
  t.humRaw = s.humRaw ∧ t.tmpSign = s.tmpSign ∧ t.tmpMag = s.tmpMag

/-- The Reading is, whole, the valid frame in the Raw Register, and `LAST` reports it. -/
def readingIsFrame (t : State) : Prop :=
  t.last = .ok ∧ frameValid t.raw = true ∧ t.humRaw = humField t.raw ∧ t.tmpSign = signField t.raw ∧
    t.tmpMag = magField t.raw

/-- From `s` to `t` the Reading is committed, with `ev_ok`, or kept, without it. -/
def commitsOrKeeps (s t : State) : Prop :=
  t.strobe = some .ok ∧ readingIsFrame t ∨ t.strobe ≠ some .ok ∧ sameReading s t

theorem commitsOrKeeps_evaluate (s : State) : commitsOrKeeps s (evaluate s) := by
  rcases evaluate_cases s with ⟨hv, h⟩ | ⟨-, h⟩ <;> rw [h]
  · exact .inl ⟨rfl, rfl, hv, rfl, rfl, rfl⟩
  · exact .inr ⟨by simp, rfl, rfl, rfl⟩

section
variable {s : State} (hs : s.strobe = none)
include hs

theorem commitsOrKeeps_receiveBit (r : Nat) : commitsOrKeeps s (receiveBit r s) := by
  rcases receiveBit_cases r s with ⟨-, h⟩ | ⟨-, h⟩ <;> rw [h]
  · exact commitsOrKeeps_evaluate { s with raw := shiftIn s.raw (thresholdBit r) }
  · exact .inr ⟨by simp [hs], rfl, rfl, rfl⟩

/-- Once the event of the tick before is low, the evaluation after bit 39 is the one way a tick can commit. -/
theorem commitsOrKeeps_tickPhase (p : Phase) : commitsOrKeeps s (tickPhase p s) := by
  refine tickPhase_cases p s ?idle ?_ ?_ ?_ ?_ ?_ ?_ ?_ ?_ ?_ ?endsBitHigh <;> intro _
  case idle => cases s.run <;> exact .inr ⟨by simp [hs], rfl, rfl, rfl⟩
  case endsBitHigh => exact commitsOrKeeps_receiveBit hs _
  all_goals exact .inr ⟨by simp [hs], rfl, rfl, rfl⟩

end

/-- Settles O42: a tick commits or keeps the Reading, and a host transaction writes none of it. -/
theorem readingReplacedOnlyByCommit : Obligations.ReadingReplacedOnlyByCommit := by
  intro s s1 t e he hreset hstep
  obtain ⟨⟨es, n, rfl⟩, hcases⟩ := step_next_cases he hstep
  rcases hcases with ⟨l, rfl, rfl⟩ | ⟨rfl, -⟩ | ⟨w, rfl, ⟨d, -, -, rfl⟩ | ⟨-, rfl | ⟨v, rfl⟩⟩⟩
  · rcases commitsOrKeeps_tickPhase (beginTick_strobe l _) _ with ⟨hok, hframe⟩ | ⟨hno, hhum, hsign, hmag⟩
    · exact ⟨fun _ => ⟨⟨l, rfl⟩, hok⟩, fun _ _ _ => hframe⟩
    · exact ⟨fun hne => by simp [hhum, hsign, hmag] at hne, fun _ _ hok => absurd hok hno⟩
  · exact absurd rfl hreset
  · exact ⟨by simp, nofun⟩
  · exact ⟨by simp, nofun⟩
  · exact ⟨by simp, nofun⟩

end Sys2Proof.Proofs
end

section
/-! The code spaces (30_encoding.md R72, R76, R77, R78, R82): what the decoder reads from a word that the encoder put
together, and why every code a space accepts is the code of an instruction of that space. -/

namespace Sys2Proof.Proofs

open Machine Laws

/-! ## Words put together from fields -/

/-- Every word is its high part over its low part. -/
theorem exists_append {v w : Nat} (x : BitVec (v + w)) : ∃ (a : BitVec v) (b : BitVec w), a ++ b = x :=
  ⟨x.extractLsb' w v, x.extractLsb' 0 w, by
    rw [BitVec.extractLsb'_append_extractLsb'_eq_extractLsb' (Nat.zero_add w).symm, BitVec.extractLsb'_eq_self]⟩

theorem exists_hostWord (w : BitVec 35) : ∃ we addr d, hostWord we addr d = w := by
  obtain ⟨top, d, rfl⟩ := exists_append (v := 3) (w := 32) w
  obtain ⟨we, addr, rfl⟩ := exists_append (v := 1) (w := 2) top
  exact ⟨we, addr, d, rfl⟩

theorem exists_frameBits (w : BitVec 40) : ∃ h sgn m c, frameBits h sgn m c = w := by
  obtain ⟨rest, c, rfl⟩ := exists_append (v := 32) (w := 8) w
  obtain ⟨rest, m, rfl⟩ := exists_append (v := 17) (w := 15) rest
  obtain ⟨h, sgn, rfl⟩ := exists_append (v := 16) (w := 1) rest
  exact ⟨h, sgn, m, c, rfl⟩

theorem hostWord_data (we : BitVec 1) (addr : BitVec 2) (d : BitVec 32) :
    (hostWord we addr d).extractLsb' 0 32 = d :=
  BitVec.extractLsb'_append_eq_right

/-- The `START` bit of a transaction word. -/
theorem hostWord_start (we : BitVec 1) (addr : BitVec 2) (d : BitVec 31) (b : BitVec 1) :
    (hostWord we addr (d ++ b)).getLsbD 0 = b.getLsbD 0 := by
  rw [hostWord_getLsbD, if_pos (by decide), data_getLsbD, if_pos (by decide)]

/-- The write data above the `START` bit. -/
theorem hostWord_dataAboveStart (we : BitVec 1) (addr : BitVec 2) (d : BitVec 31) (b : BitVec 1) :
    (hostWord we addr (d ++ b)).extractLsb' 1 31 = d := by
  rw [hostWord, BitVec.extractLsb'_append_eq_of_add_le (by decide)]
  exact BitVec.extractLsb'_append_eq_left

/-! ## Phase and status codes -/

@[simp] theorem statusCode_statusOfCode (c : BitVec 2) : statusCode (statusOfCode c) = c := by
  revert c; decide

@[simp] theorem phaseCode_phaseOfCode (c : BitVec 3) : phaseCode (phaseOfCode c) = c := by
  revert c; decide

/-- Settles O24: the codes are computed, and no code of the two spaces is unused. -/
theorem codesAreAsTabled : Obligations.CodesAreAsTabled :=
  ⟨⟨rfl, rfl, rfl, rfl⟩, ⟨rfl, rfl, rfl, rfl, rfl, rfl, rfl, rfl⟩, statusCode_statusOfCode, phaseCode_phaseOfCode⟩

/-! ## The `STATUS` word -/

theorem statusBits_eq_ofNat (l : Status) (r : Bool) :
    statusBits l r = BitVec.ofNat 32 (2 * (statusCode l).toNat + if r then 1 else 0) := by
  cases l <;> cases r <;> rfl

/-- Settles O19: the read completes with the word of the row's fields, whose number is `statusBits_eq_ofNat`. -/
theorem statusWordRowReturnsItsBits : Obligations.StatusWordRowReturnsItsBits := by
  intro l r s
  rw [← statusBits_eq_ofNat]
  rfl

/-- A word whose bits 31:3 read 0 is the `STATUS` word of its fields. -/
theorem statusBits_fields {w : Word} (hw : w.extractLsb' 3 29 = 0#29) :
    statusBits (statusOfCode (w.extractLsb' 1 2)) (w.getLsbD 0) = w := by
  refine BitVec.eq_of_getLsbD_eq fun i hi => ?_
  rw [statusBits_getLsbD, statusCode_statusOfCode]
  split_ifs with h0 h3
  · rw [h0]
  · rw [BitVec.getLsbD_extractLsb', decide_eq_true (by omega), Bool.true_and, show 1 + (i - 1) = i by omega]
  · have hbit := congrArg (BitVec.getLsbD · (i - 3)) hw
    simpa [show i - 3 < 29 by omega, show 3 + (i - 3) = i by omega] using hbit.symm

theorem decodeStatusWord_statusBits (l : Status) (r : Bool) :
    decodeStatusWord (statusBits l r) = .ok (.statusWord l r) := by
  cases l <;> cases r <;> rfl

/-! ## Decoding what was encoded -/

@[simp] theorem decode_frame40_toNat (w : BitVec 40) : decode .frame40 w.toNat = .ok (decodeFrame w) := by
  simp [decode, formatWidth, w.isLt]

@[simp] theorem decode_word32_toNat (w : Word) : decode .word32 w.toNat = decodeStatusWord w := by
  simp [decode, formatWidth, w.isLt]

theorem decodeFrame_frameBits (h : BitVec 16) (sgn : BitVec 1) (m : BitVec 15) (c : BitVec 8) :
    decodeFrame (frameBits h sgn m c) = .frame h sgn m c := by
  simp only [decodeFrame, frameBits]
  congr 1
  · rw [BitVec.extractLsb'_append_eq_of_le (by decide), BitVec.extractLsb'_append_eq_of_le (by decide)]
    exact BitVec.extractLsb'_append_eq_left
  · rw [BitVec.extractLsb'_append_eq_of_le (by decide), BitVec.extractLsb'_append_eq_of_le (by decide)]
    exact BitVec.extractLsb'_append_eq_right
  · rw [BitVec.extractLsb'_append_eq_of_le (by decide)]
    exact BitVec.extractLsb'_append_eq_right
  · exact BitVec.extractLsb'_append_eq_right

/-- In each code space the decoder reads back the fields the encoder put together. -/
theorem decode_encode (i : Instr) : decode (instrFormat i) (encode i) = .ok i := by
  cases i with
  | startSampling d | ctrlNop d =>
    simp only [instrFormat, encode, decode_host35_toNat, decodeHost, hostWord_write, hostWord_addr,
      hostWord_start, hostWord_dataAboveStart]
    rfl
  | writeIgnoredW1 d | writeIgnoredW2 d | writeIgnoredW3 d | readCtrl d | getStatus d | getHumidity d
  | getTemperature d =>
    simp only [instrFormat, encode, decode_host35_toNat, decodeHost, hostWord_write, hostWord_addr, hostWord_data]
    rfl
  | idle | wakeLow | wakeHigh | ackLow | ackHigh | bitLow | bitHigh | sleep => rfl
  | frame h sgn m c => rw [instrFormat, encode, decode_frame40_toNat, decodeFrame_frameBits]
  | lastNone | lastOk | lastTimeout | lastChecksum => rfl
  | statusWord l r => rw [instrFormat, encode, decode_word32_toNat, decodeStatusWord_statusBits]

/-- Settles O26; this hardware has no instruction that is not well formed (`instr_wellFormed`), so the hypothesis
excludes none. -/
theorem decodeOfEncodeIsIdentity : Obligations.DecodeOfEncodeIsIdentity :=
  fun i _ => decode_encode i

/-! ## Encoding what was decoded -/

/-- The code is the code of an instruction of its space. -/
def isCodeOf (f : Format) (n : Nat) : Prop := ∃ i, instrFormat i = f ∧ encode i = n

theorem isCodeOf_host35 (w : BitVec 35) : isCodeOf .host35 w.toNat := by
  obtain ⟨we, addr, d, rfl⟩ := exists_hostWord w
  have hwe : we = 0#1 ∨ we = 1#1 := by revert we; decide
  have haddr : addr = 0#2 ∨ addr = 1#2 ∨ addr = 2#2 ∨ addr = 3#2 := by revert addr; decide
  rcases hwe with rfl | rfl
  · rcases haddr with rfl | rfl | rfl | rfl
    · exact ⟨.readCtrl d, rfl, rfl⟩
    · exact ⟨.getStatus d, rfl, rfl⟩
    · exact ⟨.getHumidity d, rfl, rfl⟩
    · exact ⟨.getTemperature d, rfl, rfl⟩
  · rcases haddr with rfl | rfl | rfl | rfl
    · obtain ⟨d, b, rfl⟩ := exists_append (v := 31) (w := 1) d
      have hb : b = 0#1 ∨ b = 1#1 := by revert b; decide
      rcases hb with rfl | rfl
      · exact ⟨.ctrlNop d, rfl, rfl⟩
      · exact ⟨.startSampling d, rfl, rfl⟩
    · exact ⟨.writeIgnoredW1 d, rfl, rfl⟩
    · exact ⟨.writeIgnoredW2 d, rfl, rfl⟩
    · exact ⟨.writeIgnoredW3 d, rfl, rfl⟩

theorem isCodeOf_phaseCode (p : Phase) : isCodeOf .phase3 (phaseCode p).toNat :=
  ⟨phaseInstr p, by cases p <;> rfl, by cases p <;> rfl⟩

theorem isCodeOf_frame40 (w : BitVec 40) : isCodeOf .frame40 w.toNat := by
  obtain ⟨h, sgn, m, c, rfl⟩ := exists_frameBits w
  exact ⟨.frame h sgn m c, rfl, rfl⟩

theorem isCodeOf_statusCode (l : Status) : isCodeOf .last2 (statusCode l).toNat :=
  ⟨statusInstr l, by cases l <;> rfl, by cases l <;> rfl⟩

theorem isCodeOf_word32 {w : Word} {i : Instr} (h : decodeStatusWord w = .ok i) : isCodeOf .word32 w.toNat := by
  by_cases hw : w.extractLsb' 3 29 = 0#29
  · exact ⟨.statusWord _ _, rfl, congrArg BitVec.toNat (statusBits_fields hw)⟩
  · rw [decodeStatusWord, if_neg hw] at h
    cases h

/-- A number that decodes is a word of its space's width. -/
theorem exists_word_of_decode {f : Format} {n : Nat} {i : Instr} (h : decode f n = .ok i) :
    ∃ w : BitVec (formatWidth f), w.toNat = n := by
  by_cases hn : n < 2 ^ formatWidth f
  · exact ⟨.ofNatLT n hn, BitVec.toNat_ofNatLT n hn⟩
  · simp [decode, hn] at h

theorem isCodeOf_of_decode {f : Format} {n : Nat} {i : Instr} (h : decode f n = .ok i) : isCodeOf f n := by
  obtain ⟨w, rfl⟩ := exists_word_of_decode h
  cases f with
  | host35 => exact isCodeOf_host35 w
  | phase3 => exact phaseCode_phaseOfCode w ▸ isCodeOf_phaseCode (phaseOfCode w)
  | frame40 => exact isCodeOf_frame40 w
  | last2 => exact statusCode_statusOfCode w ▸ isCodeOf_statusCode (statusOfCode w)
  | word32 => exact isCodeOf_word32 ((decode_word32_toNat w).symm.trans h)

/-- Settles O27: what decodes is the code of an instruction of the space, and by `decode_encode` that is the one it
decodes to. -/
theorem encodeOfDecodeIsIdentity : Obligations.EncodeOfDecodeIsIdentity := by
  intro f n i h
  obtain ⟨j, rfl, rfl⟩ := isCodeOf_of_decode h
  rw [decode_encode] at h
  cases h
  exact ⟨rfl, rfl⟩

/-! ## The rows of a transaction word -/

/-- The rows of format `HOST35` look at no bit of the write data but `START`. -/
theorem hostRows_mask : ∀ r ∈ hostRows, r.mask = 0x700000000 ∨ r.mask = 0x700000001 := by decide

theorem rowMatches_hostWord {r : OpcodeRow} (hr : r ∈ hostRows) (we : BitVec 1) (addr : BitVec 2) (d : BitVec 31)
    (b : BitVec 1) :
    rowMatches r (hostWord we addr (d ++ b)).toNat = rowMatches r (hostWord we addr (0#31 ++ b)).toNat := by
  rcases hostRows_mask r hr with hm | hm
  · simp only [rowMatches, hm, toNat_and_top]
  · simp only [rowMatches, hm, toNat_and_start]

theorem instrMnemonic_decodeHost (we : BitVec 1) (addr : BitVec 2) (d : BitVec 31) (b : BitVec 1) :
    instrMnemonic (decodeHost (hostWord we addr (d ++ b))) =
      instrMnemonic (decodeHost (hostWord we addr (0#31 ++ b))) := by
  simp only [decodeHost, hostWord_write, hostWord_addr, hostWord_start]
  split_ifs <;> rfl

/-- The 16 transaction words whose write data above `START` is 0. -/
theorem hostRows_of_bareWord : ∀ (we : BitVec 1) (addr : BitVec 2) (b : BitVec 1),
    (hostRows.filter (fun r => rowMatches r (hostWord we addr (0#31 ++ b)).toNat)).map OpcodeRow.mnemonic =
      [instrMnemonic (decodeHost (hostWord we addr (0#31 ++ b)))] := by
  decide

/-- Settles O28: neither the rows a word matches nor the mnemonic it decodes to depend on the write data above `START`,
which leaves 16 words. -/
theorem everyHostWordMatchesOneRow : Obligations.EveryHostWordMatchesOneRow := by
  intro w
  obtain ⟨we, addr, data, rfl⟩ := exists_hostWord w
  obtain ⟨d, b, rfl⟩ := exists_append (v := 31) (w := 1) data
  rw [List.filter_congr fun r hr => rowMatches_hostWord hr we addr d b, instrMnemonic_decodeHost]
  exact hostRows_of_bareWord we addr b

/-! ## The checksum -/

theorem rawByte_frameBits_check (h : BitVec 16) (sgn : BitVec 1) (m : BitVec 15) (c : BitVec 8) :
    rawByte (frameBits h sgn m c) 4 = c :=
  BitVec.extractLsb'_append_eq_right

/-- The payload bytes do not depend on the checksum byte. -/
theorem rawByte_frameBits_payload (h : BitVec 16) (sgn : BitVec 1) (m : BitVec 15) (c : BitVec 8) {i : Nat}
    (hi : i < 4) : rawByte (frameBits h sgn m c) i = (h ++ sgn ++ m).extractLsb' (32 - 8 * i - 8) 8 :=
  BitVec.extractLsb'_append_eq_of_le (by omega)

theorem payloadSum_frameBits (h : BitVec 16) (sgn : BitVec 1) (m : BitVec 15) (c c' : BitVec 8) :
    payloadSum (frameBits h sgn m c) = payloadSum (frameBits h sgn m c') := by
  simp [payloadSum, rawByte_frameBits_payload]

theorem frameValid_frameBits_iff (h : BitVec 16) (sgn : BitVec 1) (m : BitVec 15) (c : BitVec 8) :
    frameValid (frameBits h sgn m c) = true ↔ payloadSum (frameBits h sgn m 0) = c := by
  rw [frameValid, beq_iff_eq, rawByte_frameBits_check, payloadSum_frameBits h sgn m c 0]

/-- Settles O20: the one checksum byte is the sum of the payload bytes, which the checksum byte is no part of. -/
theorem oneChecksumPerPayload : Obligations.OneChecksumPerPayload := by
  intro h sgn m
  refine ⟨payloadSum (frameBits h sgn m 0), (frameValid_frameBits_iff ..).2 rfl, fun c' hc' => ?_⟩
  exact ((frameValid_frameBits_iff ..).1 hc').symm

end Sys2Proof.Proofs
end

section
/-! The timing unit (40_timing_unit.md): what `measure` says of a line whose last test is at a known tick (R101), what a
wait phase does on a run of samples at its level, and that the two agree (R102). -/

namespace Sys2Proof.Proofs

open Machine Laws

/-! ## The measure function -/

/-- A wait on `L` that starts with count `k0` makes its last test at count `r`: the level holds from its first test up
to that one, and there it has changed or the bound is reached (R101). -/
structure LastTest (line : Nat → Level) (n0 : Nat) (L : Level) (T k0 r : Nat) : Prop where
  start_le : k0 ≤ r
  le_bound : r ≤ T
  holds : ∀ j, k0 ≤ j → j < r → line (n0 + j) = L
  ends : line (n0 + r) ≠ L ∨ r = T

section
variable {line : Nat → Level} {n0 : Nat} {L : Level} {T k0 r : Nat}

/-- The last test is the first one that finds another level, or the one at the bound. -/
theorem exists_lastTest (line : Nat → Level) (n0 : Nat) (L : Level) (hk : k0 ≤ T) :
    ∃ r, LastTest line n0 L T k0 r := by
  have hex : ∃ r, k0 ≤ r ∧ (line (n0 + r) ≠ L ∨ r = T) := ⟨T, hk, .inr rfl⟩
  obtain ⟨hle, hend⟩ := Nat.find_spec hex
  refine ⟨Nat.find hex, hle, Nat.find_min' hex ⟨hk, .inr rfl⟩, fun j hkj hj => ?_, hend⟩
  by_contra hne
  exact Nat.find_min hex hj ⟨hkj, .inl hne⟩

/-- Where the last test is depends on the ticks looked at only. -/
theorem LastTest.congr (h : LastTest line n0 L T k0 r) {line' : Nat → Level}
    (hl : ∀ j, n0 + k0 ≤ j → j ≤ n0 + T → line' j = line j) : LastTest line' n0 L T k0 r := by
  obtain ⟨hk, hT, hholds, hend⟩ := h
  have hl' (j : Nat) (hkj : k0 ≤ j) (hj : j ≤ T) : line' (n0 + j) = line (n0 + j) :=
    hl _ (Nat.add_le_add_left hkj n0) (Nat.add_le_add_left hj n0)
  refine ⟨hk, hT, fun j hkj hj => ?_, ?_⟩
  · rw [hl' j hkj (hj.le.trans hT), hholds j hkj hj]
  · rwa [hl' r hk hT]

/-- A later count of the same wait has the same last test. -/
theorem LastTest.succ_start (h : LastTest line n0 L T k0 r) (hr : k0 < r) : LastTest line n0 L T (k0 + 1) r :=
  { h with
    start_le := hr
    holds := fun j hj => h.holds j (Nat.le_of_succ_le hj) }

/-- What a wait answers at its last test: the count, or that it timed out. -/
def lastResult (line : Nat → Level) (n0 : Nat) (L : Level) (r : Nat) : WaitResult :=
  if line (n0 + r) = L then .timeout else .done r

/-- R101's loop goes on until the last test; fuel for the counts up to the bound is enough. -/
theorem LastTest.measureLoop_eq (h : LastTest line n0 L T k0 r) {fuel : Nat} (hf : T < fuel + k0) :
    measureLoop line n0 L T fuel k0 = (lastResult line n0 L r, n0 + r) := by
  induction fuel generalizing k0 with
  | zero =>
    have hkT : k0 ≤ T := h.start_le.trans h.le_bound
    omega
  | succ fuel ih =>
    rcases h.start_le.eq_or_lt with rfl | hr
    · by_cases hL : line (n0 + k0) = L
      · obtain rfl : k0 = T := h.ends.resolve_left (not_not.2 hL)
        simp [measureLoop, lastResult, hL]
      · simp [measureLoop, lastResult, hL]
    · have hL : line (n0 + k0) = L := h.holds k0 le_rfl hr
      have hT : ¬ T < k0 + 1 := Nat.not_lt.2 (Nat.le_trans hr h.le_bound)
      rw [measureLoop, if_neg (not_not.2 hL), if_neg hT]
      exact ih (h.succ_start hr) (by omega)

theorem LastTest.measure_eq (h : LastTest line n0 L T k0 r) :
    measure line n0 L T k0 = (lastResult line n0 L r, n0 + r) :=
  h.measureLoop_eq (by omega)

end

/-- Settles O31: a run within the bound makes its end the last test, a longer one the bound, and lines that agree on the
ticks looked at have the same last test. -/
theorem measureGivesRunLength : Obligations.MeasureGivesRunLength := by
  intro line n0 L T k0 hk
  refine ⟨fun r hkr hrT hrun hend => ?_, fun hrun => ?_, fun line' hl => ?_⟩
  · have h : LastTest line n0 L T k0 r := ⟨hkr, hrT, fun j _ => hrun j, .inl hend⟩
    rw [h.measure_eq, lastResult, if_neg hend]
  · have h : LastTest line n0 L T k0 T := ⟨hk, le_rfl, fun j _ hj => hrun j hj.le, .inr rfl⟩
    rw [h.measure_eq, lastResult, if_pos (hrun T le_rfl)]
  · obtain ⟨r, h⟩ := exists_lastTest line n0 L hk
    have hr : line' (n0 + r) = line (n0 + r) :=
      hl _ (Nat.add_le_add_left h.start_le n0) (Nat.add_le_add_left h.le_bound n0)
    rw [h.measure_eq, (h.congr hl).measure_eq, lastResult, lastResult, hr]

/-! ## Runs of the machine -/

theorem run_succ_of_step {s t : State} (h : step s = .next t) (k : Nat) :
    Host.Core.run core (k + 1) s = Host.Core.run core k t := by
  have hs : core.step s = .next t := h
  simp only [Host.Core.run, hs]

/-- The first step of a run, when it is a listed tick. -/
theorem run_succ_of_tick {s : State} {l : Level} {rest : List Event} (he : s.env = .tick l :: rest) (k : Nat) :
    Host.Core.run core (k + 1) s =
      Host.Core.run core k (tickPhase s.ph (beginTick l (withEvents s rest))) :=
  run_succ_of_step (step_tick_next (takeEvent_cons s _ rest he)) k

/-! ## A wait phase, tick by tick -/

/-- What a wait phase does with its count (R124, R125, R141, R142). -/
def afterWait : Phase → Nat → State → State
  | .ackLow => fun _ => enterWait .ackHigh
  | .ackHigh => fun _ => enterWait .bitLow
  | .bitLow => fun _ => enterWait .bitHigh
  | .bitHigh => receiveBit
  | .idle => fun _ s => s
  | .wakeLow => fun _ s => s
  | .wakeHigh => fun _ s => s
  | .sleep => fun _ s => s

theorem tickPhase_of_waitOperands {p : Phase} {L : Level} {T : Nat} (ho : waitOperands p = some (L, T)) (s : State) :
    tickPhase p s = runWait L T (afterWait p) s := by
  cases p <;> cases ho <;> rfl

/-- The wait has gone on for `n` ticks; the latest sample and the event outputs are left to the next tick, which sets
both. -/
def waited (n : Nat) (rest : List Event) (s : State) : State :=
  { s with el := s.el + BitVec.ofNat 8 n, tickNo := s.tickNo + n, env := rest }

theorem waited_el_succ (n : Nat) (rest rest' : List Event) (s : State) :
    (waited n rest s).el + 1 = (waited (n + 1) rest' s).el := by
  simp [waited, BitVec.ofNat_add, add_assoc]

/-- The tick that samples the level of the wait within its bound (R102): `EL` goes up by one. -/
def countOn (L : Level) (s : State) : State := { beginTick L s with el := s.el + 1 }

/-- A tick that counts on is one more tick waited. -/
theorem beginTick_waited_countOn (l L : Level) (n : Nat) (rest rest' : List Event) (s : State) :
    beginTick l (waited n rest (countOn L (withEvents s rest'))) = beginTick l (waited (n + 1) rest s) := by
  simp [waited, countOn, beginTick, BitVec.ofNat_add, add_left_comm, add_comm]

section
variable {p : Phase} {s : State} {L : Level} {T n : Nat} (ho : waitOperands p = some (L, T))
include ho

/-- The bound of a wait lies below the end of `EL`. -/
theorem waited_el_toNat (hT : s.el.toNat + n ≤ T) (rest : List Event) :
    (waited n rest s).el.toNat = s.el.toNat + n := by
  have hT85 : T ≤ 85 := (isWait_of_waitOperands ho).2
  rw [waited, BitVec.toNat_add, BitVec.toNat_ofNat]
  omega

theorem tickPhase_countOn (hT : s.el.toNat + 1 ≤ T) : tickPhase p (beginTick L s) = countOn L s := by
  rw [tickPhase_of_waitOperands ho]
  exact runWait_stay rfl hT

/-- A wait counts on through `n` samples at its level, and the tick after them is one of its phase. -/
theorem run_waited {l : Level} {rest : List Event} (hp : s.ph = p) (hT : s.el.toNat + n ≤ T)
    (he : s.env = List.replicate n (.tick L) ++ .tick l :: rest) :
    Host.Core.run core (n + 1) s = .next (tickPhase p (beginTick l (waited n rest s))) := by
  induction n generalizing s with
  | zero =>
    rw [run_succ_of_tick he, hp]
    simp [Host.Core.run, waited, withEvents]
  | succ n ih =>
    have hlt : s.el.toNat + 1 ≤ T := by omega
    let s' := withEvents s (List.replicate n (.tick L) ++ .tick l :: rest)
    have hcount : tickPhase s.ph (beginTick L s') = countOn L s' :=
      hp ▸ tickPhase_countOn ho hlt
    have hel : (countOn L s').el.toNat = s.el.toNat + 1 := waited_el_toNat (s := s) (n := 1) ho hlt []
    calc Host.Core.run core (n + 1 + 1) s
      _ = Host.Core.run core (n + 1) (tickPhase s.ph (beginTick L s')) := run_succ_of_tick he _
      _ = Host.Core.run core (n + 1) (countOn L s') := congrArg (Host.Core.run core (n + 1)) hcount
      _ = .next (tickPhase p (beginTick l (waited n rest (countOn L s')))) := ih hp (by omega) rfl
      _ = .next (tickPhase p (beginTick l (waited (n + 1) rest s))) := by rw [beginTick_waited_countOn]

/-- Until then the phase stays and `EL` counts. -/
theorem reaches_waiting {k : Nat} {rest : List Event} (hp : s.ph = p) (hT : s.el.toNat + n ≤ T)
    (he : s.env = List.replicate n (.tick L) ++ rest) (hk : k ≤ n) :
    reaches k s (fun t => t.ph = p ∧ t.el.toNat = s.el.toNat + k) := by
  cases k with
  | zero => exact ⟨s, rfl, hp, rfl⟩
  | succ k =>
    obtain ⟨m, rfl⟩ := Nat.exists_eq_add_of_le hk
    let rest' := List.replicate m (.tick L) ++ rest
    have he' : s.env = List.replicate k (.tick L) ++ .tick L :: rest' := by
      simp [he, rest', List.replicate_add]
    have hel : (waited k rest' s).el.toNat = s.el.toNat + k := waited_el_toNat ho (by omega) rest'
    refine ⟨_, run_waited ho hp (by omega) he', ?_⟩
    rw [tickPhase_countOn ho (by omega)]
    refine ⟨hp, (congrArg BitVec.toNat (waited_el_succ k rest' rest' s)).trans ?_⟩
    exact waited_el_toNat ho (by omega) rest'

end

/-! ## The samples of a wait -/

/-- The ticks that give a wait its samples: those at its level, the last one it tests, and later ones. -/
theorem LastTest.samples {line : Nat → Level} {n0 : Nat} {L : Level} {T k0 r : Nat} (h : LastTest line n0 L T k0 r) :
    ∃ later, (List.range (T + 1 - k0)).map (fun j => Event.tick (line (n0 + k0 + j))) =
      List.replicate (r - k0) (.tick L) ++ .tick (line (n0 + r)) :: later := by
  obtain ⟨hk, hT, hholds, -⟩ := h
  have hlen : T + 1 - k0 = (r - k0) + (T - r + 1) := by omega
  have hlast : n0 + k0 + (r - k0) = n0 + r := by omega
  have hrun : (List.range (r - k0)).map (fun j => Event.tick (line (n0 + k0 + j))) =
      List.replicate (r - k0) (.tick L) := by
    refine List.eq_replicate_iff.2 ⟨by simp, ?_⟩
    simp only [List.mem_map, List.mem_range]
    rintro _ ⟨j, hj, rfl⟩
    rw [add_assoc, hholds (k0 + j) (by omega) (by omega)]
  rw [hlen, List.range_add, List.map_append, hrun, List.range_succ_eq_map]
  simp only [List.map_cons, Nat.add_zero, hlast]
  exact ⟨_, rfl⟩

/-! ## What follows a count -/

theorem evaluate_raw (s : State) : (evaluate s).raw = s.raw := by
  rcases evaluate_cases s with ⟨-, h⟩ | ⟨-, h⟩ <;> simp [h]

theorem receiveBit_raw (r : Nat) (s : State) : (receiveBit r s).raw = shiftIn s.raw (decide (40 < r)) := by
  rcases receiveBit_cases r s with ⟨-, h⟩ | ⟨-, h⟩ <;> rw [h]
  · exact evaluate_raw _
  · rfl

/-- Bit 39 ends the attempt. -/
theorem receiveBit_ph_of_last (r : Nat) (s : State) (hidx : s.bitIdx.toNat = 39) : (receiveBit r s).ph = .sleep := by
  rcases receiveBit_cases r s with ⟨-, h⟩ | ⟨hne, -⟩
  · rw [h, evaluate_ph]
  · exact absurd hidx hne

/-- Before bit 39 the next bit's low wait begins on the same sample. -/
theorem receiveBit_of_not_last (r : Nat) (s : State) (hidx : s.bitIdx.toNat ≠ 39) :
    (receiveBit r s).ph = .bitLow ∧ (receiveBit r s).el = 1 := by
  rcases receiveBit_cases r s with ⟨heq, -⟩ | ⟨-, h⟩
  · exact absurd heq hidx
  · rw [h]
    exact ⟨rfl, rfl⟩

theorem evaluate_strobe_ne_timeout (s : State) : (evaluate s).strobe ≠ some .timeout := by
  rcases evaluate_cases s with ⟨-, h⟩ | ⟨-, h⟩ <;> simp [h]

/-- No wait that ends with a count reports a timeout. -/
theorem afterWait_strobe_ne_timeout {s : State} (hs : s.strobe = none) (p : Phase) (r : Nat) :
    (afterWait p r s).strobe ≠ some .timeout := by
  cases p with
  | bitHigh =>
    rw [afterWait]
    rcases receiveBit_cases r s with ⟨-, h⟩ | ⟨-, h⟩ <;> rw [h]
    · exact evaluate_strobe_ne_timeout _
    · simp [hs]
  | _ => simp [afterWait, hs]

/-! ## The end of a wait -/

/-- What the tick that ends a wait does with the result (R102). -/
def endWait (p : Phase) : WaitResult → State → State
  | .timeout => abortTimeout
  | .done r => afterWait p r

/-- At the last test the phase acts on the result the line gives there. -/
theorem LastTest.tickPhase_eq {line : Nat → Level} {n0 : Nat} {L : Level} {T k0 r : Nat}
    (h : LastTest line n0 L T k0 r) {p : Phase} (ho : waitOperands p = some (L, T)) {s : State}
    (hel : s.el.toNat = r) :
    tickPhase p (beginTick (line (n0 + r)) s) =
      endWait p (lastResult line n0 L r) (beginTick (line (n0 + r)) s) := by
  rw [tickPhase_of_waitOperands ho, lastResult]
  by_cases hL : line (n0 + r) = L
  · have hrT : r = T := h.ends.resolve_left (not_not.2 hL)
    rw [runWait_timeout hL (by rw [beginTick_el]; omega), if_pos hL, endWait]
  · rw [runWait_done hL, if_neg hL, endWait, beginTick_el, hel]

/-- Settles O32: the samples before the last test keep the wait counting, and there the phase acts on the result. -/
theorem waitPhaseComputesMeasure : Obligations.WaitPhaseComputesMeasure := by
  intro p L T k0 n0 line s rest ho hp hel hk henv m
  obtain ⟨r, h⟩ := exists_lastTest line n0 L hk
  obtain ⟨later, hsamples⟩ := h.samples
  have hkr : k0 ≤ r := h.start_le
  have hrT : r ≤ T := h.le_bound
  have hm : m = (lastResult line n0 L r, n0 + r) := h.measure_eq
  have hbound : s.el.toNat + (r - k0) ≤ T := by omega
  rw [hsamples, List.append_assoc, List.cons_append] at henv
  rw [hm]
  refine ⟨fun k hkm => ?_, Nat.add_le_add_left hkr n0, Nat.add_le_add_left hrT n0, ?_⟩
  · have hkn : k ≤ r - k0 := by simp only at hkm; omega
    exact hel ▸ reaches_waiting ho hp hbound henv hkn
  · have hsteps : n0 + r + 1 - (n0 + k0) = r - k0 + 1 := by omega
    have hcount : (waited (r - k0) (later ++ rest) s).el.toNat = r := by
      rw [waited_el_toNat ho hbound]
      omega
    let u := beginTick (line (n0 + r)) (waited (r - k0) (later ++ rest) s)
    simp only [hsteps]
    refine ⟨_, run_waited ho hp hbound henv, ?_⟩
    rw [h.tickPhase_eq ho hcount]
    cases lastResult line n0 L r with
    | timeout => exact ⟨rfl, rfl, rfl, rfl⟩
    | done c =>
      refine ⟨afterWait_strobe_ne_timeout rfl p c, ?_⟩
      cases p with
      | ackLow => exact ⟨rfl, rfl, rfl⟩
      | ackHigh => exact ⟨rfl, rfl, rfl⟩
      | bitLow => exact ⟨rfl, rfl, rfl⟩
      | bitHigh => exact ⟨receiveBit_raw c u, receiveBit_ph_of_last c u, receiveBit_of_not_last c u⟩
      | idle => cases ho
      | wakeLow => cases ho
      | wakeHigh => cases ho
      | sleep => cases ho

end Sys2Proof.Proofs
end

section
/-! The handshake (41_handshake.md): runs put together from shorter ones, a counted phase tick by tick (R121, R122), and
a wait whose line never leaves its level (R124, R125). -/

namespace Sys2Proof.Proofs

open Machine Laws

/-! ## Runs put together -/

/-- Where a run has not stopped, it goes on from the state it reached. -/
theorem run_add_of_next {k : Nat} {s t : State} (h : Host.Core.run core k s = .next t) (m : Nat) :
    Host.Core.run core (k + m) s = Host.Core.run core m t := by
  induction k generalizing s with
  | zero =>
    cases h
    rw [Nat.zero_add]
  | succ k ih =>
    cases hs : step s with
    | next s' =>
      rw [run_succ_of_step hs] at h
      rw [Nat.add_right_comm, run_succ_of_step hs, ih h]
    | fault r => simp [Host.Core.run, show core.step s = .fault r from hs] at h
    | refused r => simp [Host.Core.run, show core.step s = .refused r from hs] at h

section
variable {k m : Nat} {s : State} {P Q : State → Prop}

theorem reaches_add (h : reaches k s (fun t => reaches m t P)) : reaches (k + m) s P := by
  obtain ⟨t, ht, u, hu, hP⟩ := h
  exact ⟨u, (run_add_of_next ht m).trans hu, hP⟩

theorem reaches_mono (h : reaches k s P) (hPQ : ∀ t, P t → Q t) : reaches k s Q := by
  obtain ⟨t, ht, hP⟩ := h
  exact ⟨t, ht, hPQ t hP⟩

theorem reaches_one_of_step {t : State} (h : step s = .next t) (hP : P t) : reaches 1 s P :=
  ⟨t, run_succ_of_step h 0, hP⟩

theorem reaches_one_of_tick {l : Level} {rest : List Event} (he : s.env = .tick l :: rest)
    (hP : P (tickPhase s.ph (beginTick l (withEvents s rest)))) : reaches 1 s P :=
  reaches_one_of_step (step_tick_next (takeEvent_cons s _ rest he)) hP

end

/-! ## A counted phase, tick by tick -/

/-- What follows the last tick of a counted phase (R121, R122, R183). -/
def afterCount : Phase → State → State
  | .wakeLow => enterWakeHigh
  | .wakeHigh => releaseLine
  | .sleep => startAttempt
  | .idle => id
  | .ackLow => id
  | .ackHigh => id
  | .bitLow => id
  | .bitHigh => id

theorem tickPhase_of_countedTicks {p : Phase} {n : Nat} (hc : countedTicks p = some n) (s : State) :
    tickPhase p s = countTick n (afterCount p) s := by
  cases p <;> cases hc <;> rfl

/-- What follows starts its own count. -/
theorem afterCount_setDelay {p : Phase} {n : Nat} (hc : countedTicks p = some n) (s : State) (d : BitVec 22) :
    afterCount p { s with dly := d } = afterCount p s := by
  cases p <;> cases hc <;> rfl

/-- From `s` to `t` a counted phase has gone on for `k` ticks, with `rest` to come: nothing moved but the delay counter
and what every tick moves, the tick number, the capture register and the event outputs. -/
def counted (s : State) (k : Nat) (rest : List Event) (t : State) : Prop :=
  t = { s with
    dly := s.dly + BitVec.ofNat 22 k, tickNo := s.tickNo + k, env := rest, pinIn := t.pinIn, strobe := t.strobe }

section
variable {p : Phase} {n k : Nat} {s t : State} {samples : List Level} {rest : List Event}

theorem counted_ph (h : counted s k rest t) : t.ph = s.ph := by rw [h]

theorem counted_env (h : counted s k rest t) : t.env = rest := by rw [h]

theorem counted_zero (he : s.env = rest) : counted s 0 rest s := by simp [counted, ← he]

variable (hc : countedTicks p = some n)
include hc

/-- The length of a counted phase lies below the end of `DLY`. -/
theorem counted_dly_toNat (h : counted s k rest t) (hn : s.dly.toNat + k < n) :
    t.dly.toNat = s.dly.toNat + k := by
  have hle : n ≤ 4000000 := by
    rcases countedTicks_cases hc with ⟨-, rfl⟩ | ⟨-, rfl⟩ | ⟨-, rfl⟩ <;> decide
  rw [h, BitVec.toNat_add, BitVec.toNat_ofNat]
  omega

variable (hp : s.ph = p)
include hp

/-- A tick before the last one counts. -/
theorem counted_succ {l : Level} (h : counted s k (.tick l :: rest) t) (hn : s.dly.toNat + (k + 1) < n) :
    reaches 1 t (counted s (k + 1) rest) := by
  have hgo : (beginTick l (withEvents t rest)).dly.toNat ≠ n - 1 := by
    rw [beginTick_dly, withEvents_dly, counted_dly_toNat hc h (by omega)]
    omega
  refine reaches_one_of_tick (counted_env h) ?_
  rw [counted_ph h, hp, tickPhase_of_countedTicks hc, countTick, if_neg hgo, h]
  simp [counted, beginTick, withEvents, BitVec.ofNat_add, add_assoc]

/-- The last tick leaves the phase: what follows begins from the state at its start, in which only what every tick
moves has moved. -/
theorem counted_last {l : Level} (h : counted s k (.tick l :: rest) t) (hn : s.dly.toNat + (k + 1) = n) :
    reaches 1 t (· = afterCount p
      { s with pinIn := l, strobe := none, tickNo := s.tickNo + (k + 1), env := rest }) := by
  have hend : (beginTick l (withEvents t rest)).dly.toNat = n - 1 := by
    rw [beginTick_dly, withEvents_dly, counted_dly_toNat hc h (by omega)]
    omega
  subst hp
  refine reaches_one_of_tick (counted_env h) ?_
  rw [counted_ph h, tickPhase_of_countedTicks hc, countTick, if_pos hend, h]
  exact afterCount_setDelay hc { s with pinIn := l, strobe := none, tickNo := s.tickNo + (k + 1), env := rest } _

variable (he : s.env = samples.map .tick ++ rest)
include he

/-- Before its last tick a counted phase goes on, whatever the samples. -/
theorem reaches_counted (hk : k ≤ samples.length) (hn : s.dly.toNat + k < n) :
    reaches k s (counted s k ((samples.drop k).map .tick ++ rest)) := by
  induction k with
  | zero => exact ⟨s, rfl, counted_zero he⟩
  | succ k ih =>
    refine reaches_add (reaches_mono (ih (by omega) (by omega)) fun t ht => ?_)
    rw [List.drop_eq_getElem_cons hk] at ht
    exact counted_succ hc hp ht hn

/-- As many samples as the phase has ticks to go bring it to its end. -/
theorem reaches_afterCount (hn : s.dly.toNat + samples.length = n) (hne : samples.length ≠ 0) :
    reaches samples.length s (fun t => ∃ l, t = afterCount p
      { s with pinIn := l, strobe := none, tickNo := s.tickNo + samples.length, env := rest }) := by
  obtain ⟨k, hk⟩ := Nat.exists_eq_add_one_of_ne_zero hne
  have hlast : samples.drop k = [samples[k]] := by
    rw [List.drop_eq_getElem_cons (by omega), List.drop_eq_nil_of_le (by omega)]
  have hcount := reaches_counted hc hp he (k := k) (by omega) (by omega)
  rw [hlast] at hcount
  rw [hk] at hn ⊢
  refine reaches_add (reaches_mono hcount fun t ht => ?_)
  exact reaches_mono (counted_last hc hp ht hn) fun u hu => ⟨samples[k], hu⟩

/-- Entered with `DLY = 0` a counted phase shows in `DLY` how many of its ticks have passed. -/
theorem reaches_delay (hd : s.dly = 0) (hlen : samples.length = n) (hk : k < n) :
    reaches k s (fun t => t.ph = p ∧ t.dly.toNat = k) := by
  have hn : s.dly.toNat + k < n := by simpa [hd] using hk
  refine reaches_mono (reaches_counted hc hp he (by omega) hn) fun t ht => ⟨(counted_ph ht).trans hp, ?_⟩
  simpa [hd] using counted_dly_toNat hc ht hn

end

/-- Settles O10: the pulse is a counted phase of 3000 ticks, and a reset ends it like any other. -/
theorem wakeLowDrivesLow3000Ticks : Obligations.WakeLowDrivesLow3000Ticks := by
  refine ⟨⟨rfl, rfl⟩, fun s => exec_phaseInstr .wakeLow s, fun s samples rest hp hd hlen he => ⟨fun k hk => ?_, ?_⟩,
    fun s rest hp he => ?_⟩
  · exact reaches_delay rfl hp he hd hlen hk
  · refine hlen ▸ reaches_mono (reaches_afterCount rfl hp he (by simp [hd, hlen]) (by omega)) ?_
    rintro _ ⟨l, rfl⟩
    exact ⟨rfl, rfl, rfl⟩
  · exact reaches_one_of_step (step_reset (takeEvent_cons s _ rest he)) ⟨rfl, rfl⟩

/-- Settles O11: the high drive is a counted phase of 25 ticks, and its end releases the line. -/
theorem wakeHighDrivesHigh25Ticks : Obligations.WakeHighDrivesHigh25Ticks := by
  refine ⟨⟨rfl, rfl, rfl⟩, fun s => exec_phaseInstr .wakeHigh s,
    fun s samples rest hp hd hlen he => ⟨fun k hk => ?_, ?_⟩⟩
  · exact reaches_delay rfl hp he hd hlen hk
  · refine hlen ▸ reaches_mono (reaches_afterCount rfl hp he (by simp [hd, hlen]) (by omega)) ?_
    rintro _ ⟨l, rfl⟩
    exact ⟨rfl, rfl, rfl, rfl⟩

/-! ## A wait that times out -/

/-- The three branches of a wait's tick, written out. -/
theorem runWait_eq (L : Level) (T : Nat) (f : Nat → State → State) (s : State) :
    runWait L T f s =
      if s.pinIn ≠ L then f s.el.toNat s
      else if T < s.el.toNat + 1 then abortTimeout s
      else { s with el := s.el + 1 } := by
  rcases runWait_cases L T f s with ⟨hL, h⟩ | ⟨hL, hT, h⟩ | ⟨hL, hT, h⟩ <;> rw [h]
  · rw [if_pos hL]
  · rw [if_neg (not_not.2 hL), if_pos hT]
  · rw [if_neg (not_not.2 hL), if_neg (Nat.not_lt.2 hT)]

/-- What an attempt that timed out shows (R215). -/
def timedOut (t : State) : Prop :=
  t.ph = .sleep ∧ t.dly = 0 ∧ t.last = .timeout ∧ t.strobe = some .timeout

section
variable {p : Phase} {s : State} {L : Level} {T n : Nat} {rest : List Event} (ho : waitOperands p = some (L, T))
include ho

/-- At the bound one more sample at the wait's level aborts the attempt. -/
theorem tickPhase_abort (hT : s.el.toNat = T) : tickPhase p (beginTick L s) = abortTimeout (beginTick L s) := by
  rw [tickPhase_of_waitOperands ho]
  exact runWait_timeout rfl (by rw [beginTick_el]; omega)

/-- A sample at the other level ends the wait. -/
theorem tickPhase_done (hL : s.pinIn ≠ L) : tickPhase p s = afterWait p s.el.toNat s := by
  rw [tickPhase_of_waitOperands ho]
  exact runWait_done hL

variable (hp : s.ph = p) (hT : s.el.toNat + n = T)
include hp hT

theorem reaches_abortTimeout (he : s.env = List.replicate (n + 1) (.tick L) ++ rest) :
    reaches (n + 1) s (fun t => t = abortTimeout (beginTick L (waited n rest s))) := by
  rw [List.replicate_succ', List.append_assoc] at he
  refine ⟨_, run_waited ho hp hT.le he, tickPhase_abort ho ?_⟩
  rw [waited_el_toNat ho hT.le, hT]

/-- A wait that counted `k0`, with `n` counts to go, lasts through `n` further samples at its level and times out at one
more. -/
theorem wait_times_out {k0 : Nat} (hel : s.el.toNat = k0) (he : s.env = List.replicate (n + 1) (.tick L) ++ rest) :
    (∀ k < n + 1, reaches k s (fun t => t.ph = p ∧ t.el.toNat = k + k0)) ∧ reaches (n + 1) s timedOut := by
  refine ⟨fun k hk => ?_, reaches_mono (reaches_abortTimeout ho hp hT he) ?_⟩
  · rw [List.replicate_succ', List.append_assoc] at he
    rw [← hel, Nat.add_comm k]
    exact reaches_waiting ho hp hT.le he (Nat.le_of_lt_succ hk)
  · rintro _ rfl
    exact ⟨rfl, rfl, rfl, rfl⟩

end

/-- Settles O12: the wait is entered with 85 counts to go. -/
theorem ackLowMeasuresLowUpTo85 : Obligations.AckLowMeasuresLowUpTo85 := by
  refine ⟨fun s => ?_, fun s rest hp hel he => ?_⟩
  · exact (exec_phaseInstr .ackLow s).trans (congrArg _ (runWait_eq ..))
  · exact wait_times_out (n := 85) (k0 := 0) rfl hp (by simp [hel]) (by simp [hel]) he

/-- `ACK_HIGH` is entered with one count and 84 to go. -/
theorem ackHigh_times_out {s : State} {rest : List Event} (hp : s.ph = .ackHigh) (hel : s.el = 1)
    (he : s.env = List.replicate 85 (.tick .high) ++ rest) :
    (∀ k < 85, reaches k s (fun t => t.ph = .ackHigh ∧ t.el.toNat = k + 1)) ∧ reaches 85 s timedOut :=
  wait_times_out (n := 84) rfl hp (by simp [hel]) (by simp [hel]) he

/-- Settles O13: with the line high from the release on, the first sample ends `ACK_LOW` and 85 are left to time out. -/
theorem ackHighMeasuresHighUpTo85 : Obligations.AckHighMeasuresHighUpTo85 := by
  refine ⟨fun s => ?_, fun s rest hp hel he => ackHigh_times_out hp hel he, fun s rest hp hel he => ?_⟩
  · exact (exec_phaseInstr .ackHigh s).trans (congrArg _ (runWait_eq ..))
  · let s' := withEvents s (List.replicate 85 (.tick .high) ++ rest)
    have henter : reaches 1 s (· = enterWait .ackHigh (beginTick .high s')) := by
      refine reaches_one_of_tick he ?_
      rw [hp]
      exact tickPhase_done (p := .ackLow) rfl (by simp)
    refine ⟨reaches_mono henter ?_, reaches_add (k := 1) (m := 85) (reaches_mono henter ?_)⟩
    · rintro _ rfl
      exact ⟨rfl, rfl⟩
    · rintro _ rfl
      obtain ⟨-, hout⟩ := ackHigh_times_out (s := enterWait .ackHigh (beginTick .high s')) rfl rfl rfl
      exact hout

end Sys2Proof.Proofs
end

section
/-! The capture of a bit (42_bit_capture.md): its two waits (R141, R142), the frame that bit 39 completes, its bytes as
numbers (R160), and a whole bit (R143, R144). -/

namespace Sys2Proof.Proofs

open Machine Laws

/-- Settles O14: the wait is entered with one count and 55 to go. -/
theorem bitLowMeasuresLowUpTo56 : Obligations.BitLowMeasuresLowUpTo56 := by
  refine ⟨fun s => ?_, fun s rest hp hel he => ?_⟩
  · exact (exec_phaseInstr .bitLow s).trans (congrArg _ (runWait_eq ..))
  · exact wait_times_out (n := 55) (k0 := 1) rfl hp (by simp [hel]) (by simp [hel]) he

/-! ## The shift, and the evaluation on numbers -/

/-- A shift doubles the register modulo `2 ^ 40` and adds the bit of the count. -/
theorem shiftIn_thresholdBit_eq_ofNat (raw : BitVec 40) (r : Nat) :
    shiftIn raw (thresholdBit r) = BitVec.ofNat 40 (raw.toNat * 2 + if 40 < r then 1 else 0) := by
  have hbit : (thresholdBit r).toNat = if 40 < r then 1 else 0 := by
    by_cases h : 40 < r <;> simp [thresholdBit, h]
  apply BitVec.eq_of_toNat_eq
  rw [shiftIn_toNat, hbit, BitVec.toNat_ofNat]
  split_ifs <;> omega

/-- Byte `i` is a digit of the register's number to the base 256. -/
theorem rawByte_toNat_eq_digit (raw : BitVec 40) {i : Nat} (hi : i ≤ 4) :
    (rawByte raw i).toNat = raw.toNat / 256 ^ (4 - i) % 256 := by
  rw [rawByte_toNat, show 32 - 8 * i = 8 * (4 - i) by omega, Nat.pow_mul]

/-- A byte over a byte, as a number. -/
theorem shiftLeft_or_byte (a : Nat) (b : Byte) : a <<< 8 ||| b.toNat = a * 256 + b.toNat := by
  rw [← Nat.shiftLeft_add_eq_or_of_lt b.isLt, Nat.shiftLeft_eq]

section
variable (raw : BitVec 40)

/-- R163 and R74 with the sum taken over numbers. -/
theorem frameValid_iff_sum :
    frameValid raw = true ↔
      ((rawByte raw 0).toNat + (rawByte raw 1).toNat + (rawByte raw 2).toNat + (rawByte raw 3).toNat) &&& 0xFF =
        (rawByte raw 4).toNat := by
  rw [frameValid, beq_iff_eq, ← BitVec.toNat_inj, payloadSum, BitVec.toNat_ofNat,
    Nat.and_two_pow_sub_one_eq_mod _ 8]

theorem humField_eq_ofNat_bytes :
    humField raw = BitVec.ofNat 16 ((rawByte raw 0).toNat <<< 8 ||| (rawByte raw 1).toNat) := by
  obtain ⟨-, hhum, -, -⟩ := fieldsAreBigEndianBytes raw
  rw [shiftLeft_or_byte, ← hhum, BitVec.ofNat_toNat, BitVec.setWidth_eq]

theorem signField_eq_testBit : signField raw = (rawByte raw 2).toNat.testBit 7 := by
  rw [Bool.eq_iff_iff, signField_eq_true_iff, Nat.testBit_eq_decide_div_mod_eq, decide_eq_true_iff, rawByte_toNat]
  omega

theorem magField_eq_ofNat_bytes :
    magField raw = BitVec.ofNat 15 (((rawByte raw 2).toNat &&& 0x7F) <<< 8 ||| (rawByte raw 3).toNat) := by
  apply BitVec.eq_of_toNat_eq
  rw [shiftLeft_or_byte, Nat.and_two_pow_sub_one_eq_mod _ 7, BitVec.toNat_ofNat, magField_toNat, rawByte_toNat,
    rawByte_toNat]
  omega

/-- The evaluation is the one R160 writes with numbers. -/
theorem evaluate_setRaw_eq_evaluated (s : State) : evaluate { s with raw := raw } = evaluated raw s := by
  have hvalid := frameValid_iff_sum raw
  simp only [evaluated, ← rawByte_toNat_eq_digit raw, Nat.reduceLeDiff, ← humField_eq_ofNat_bytes,
    ← signField_eq_testBit, ← magField_eq_ofNat_bytes]
  rcases evaluate_cases { s with raw := raw } with ⟨hv, h⟩ | ⟨hv, h⟩
  · rw [h, if_pos (hvalid.1 hv)]
    rfl
  · rw [h, if_neg fun hsum => by simp [hvalid.2 hsum] at hv]
    rfl

end

/-! ## The end of a bit's high wait -/

theorem receiveBit_last (r : Nat) {s : State} (hidx : s.bitIdx.toNat = 39) :
    receiveBit r s = evaluate { s with raw := shiftIn s.raw (thresholdBit r) } := by
  obtain ⟨-, h⟩ | ⟨hne, -⟩ := receiveBit_cases r s
  · exact h
  · exact absurd hidx hne

theorem receiveBit_next (r : Nat) {s : State} (hidx : s.bitIdx.toNat ≠ 39) :
    receiveBit r s =
      enterWait .bitLow { s with raw := shiftIn s.raw (thresholdBit r), bitIdx := s.bitIdx + 1 } := by
  obtain ⟨heq, -⟩ | ⟨-, h⟩ := receiveBit_cases r s
  · exact absurd heq hidx
  · exact h

/-- A low sample ends the high wait of a bit. -/
theorem exec_bitHigh_low {s : State} (hl : s.pinIn = .low) : exec .bitHigh s = .next (receiveBit s.el.toNat s) :=
  (exec_phaseInstr .bitHigh s).trans (congrArg _ (tickPhase_done (p := .bitHigh) rfl (by simp [hl])))

/-- Settles O15: a low sample receives the bit, which bit 39 follows by the evaluation; a high one counts on or aborts,
and the wait is entered with one count and 74 to go. -/
theorem bitHighMeasuresHighUpTo75 : Obligations.BitHighMeasuresHighUpTo75 := by
  refine ⟨fun s hl => ?_, fun s hh => ?_, fun s rest hp hel he => ?_⟩
  · rw [exec_bitHigh_low hl, ← shiftIn_thresholdBit_eq_ofNat]
    refine ⟨fun hidx => ?_, fun hidx => ?_⟩
    · rw [receiveBit_last _ hidx, evaluate_setRaw_eq_evaluated]
    · rw [receiveBit_next _ hidx]
      rfl
  · refine (exec_phaseInstr .bitHigh s).trans (congrArg _ ((runWait_eq ..).trans ?_))
    rw [if_neg (not_not.2 hh)]
    rfl
  · exact wait_times_out (n := 74) (k0 := 1) rfl hp (by simp [hel]) (by simp [hel]) he

/-! ## A whole bit -/

/-- A run of samples at the wait's level within its bound ends at the first sample of the other level, with the length
of the run as the count. -/
theorem reaches_afterWait {p : Phase} {s : State} {L l : Level} {T n : Nat} {rest : List Event}
    (ho : waitOperands p = some (L, T)) (hp : s.ph = p) (hT : s.el.toNat + n ≤ T) (hl : l ≠ L)
    (he : s.env = List.replicate n (.tick L) ++ .tick l :: rest) :
    reaches (n + 1) s (· = afterWait p (s.el.toNat + n) (beginTick l (waited n rest s))) := by
  refine ⟨_, run_waited ho hp hT he, ?_⟩
  rw [tickPhase_done ho hl, beginTick_el, waited_el_toNat ho hT]

/-- The events of one bit: the low wait's further samples, the high run, which ends it, and the low sample that ends
the high wait. -/
theorem bitEvents_eq (a b : Nat) (rest : List Event) :
    (List.replicate a Level.low ++ List.replicate (b + 1) Level.high ++ [Level.low]).map Event.tick ++ rest =
      List.replicate a (.tick .low) ++
        .tick .high :: (List.replicate b (.tick .high) ++ .tick .low :: rest) := by
  simp [List.replicate_succ]

/-- Settles O50: the low wait hands over to the high one, whose count is the bit. -/
theorem bitSegmentsShiftOneBit : Obligations.BitSegmentsShiftOneBit := by
  intro s lo hi rest hp hel hidx hlo hlo' hhi hhi' he
  obtain ⟨a, rfl⟩ := Nat.exists_eq_add_of_le' hlo
  obtain ⟨b, rfl⟩ := Nat.exists_eq_add_of_le' hhi
  rw [Nat.add_sub_cancel, bitEvents_eq] at he
  let u := enterWait .bitHigh
    (beginTick .high (waited a (List.replicate b (.tick .high) ++ .tick .low :: rest) s))
  have hlow : reaches (a + 1) s (· = u) :=
    reaches_afterWait (p := .bitLow) rfl hp (by simp [hel]; omega) (by decide) he
  have hhigh : reaches (b + 1) u (· = receiveBit (1 + b) (beginTick .low (waited b rest u))) :=
    reaches_afterWait (p := .bitHigh) rfl rfl (Nat.add_comm 1 b ▸ hhi') (by decide) rfl
  refine reaches_add (reaches_mono hlow ?_)
  rintro _ rfl
  refine reaches_mono hhigh ?_
  rintro _ rfl
  have hnext : (beginTick .low (waited b rest u)).bitIdx.toNat ≠ 39 := Nat.ne_of_lt hidx
  rw [receiveBit_next _ hnext]
  simp [u, enterWait, beginTick, waited, thresholdBit, hp, hel, Nat.add_comm 1 b]
  omega

end Sys2Proof.Proofs
end

section
/-! The row of a completed frame (43_evaluate.md R160 to R166, 30_encoding.md R72). -/

namespace Sys2Proof.Proofs

open Machine Laws

/-- The row puts its four fields, joined as R72 says, into the Raw Register and evaluates them. -/
theorem exec_frame (h : BitVec 16) (sgn : BitVec 1) (m : BitVec 15) (c : BitVec 8) (s : State) :
    exec (.frame h sgn m c) s = .next (evaluate { s with raw := frameBits h sgn m c }) := rfl

/-- Settles O17: the row is the evaluation of its frame, which agrees with R160 written in numbers on every Raw
Register. -/
theorem frameIsEvaluated : Obligations.FrameIsEvaluated := by
  intro h sgn m c s
  rw [exec_frame, evaluate_setRaw_eq_evaluated, frameBits]

end Sys2Proof.Proofs
end

section
/-! The sampler's loop (44_sampler.md): what one step runs and how it can stop (R187), the phases `IDLE` and `SLEEP`
(R181, R183), the rows of the Decode Status (R182), and why a host transaction does not disturb the sequencer (R186). -/

namespace Sys2Proof.Proofs

open Machine Laws

/-! ## One step -/

/-- Settles O33: the listed or free event is the one `takeEvent` answers, and `step` runs what the presented word or the
phase code decodes to. -/
theorem stepRunsTheDecodedInstruction : Obligations.StepRunsTheDecodedInstruction := by
  refine ⟨takeEvent_cons, takeEvent_nil, fun s s1 w i he hi => ?_, fun s s1 l i he hi => ?_⟩
  · obtain rfl : decodeHost w = i := by simpa using hi
    exact step_host he
  · obtain rfl : phaseInstr s1.ph = i := by simpa using hi
    exact step_tick he

theorem takeEvent_run {s s1 : State} {e : Event} (he : takeEvent s = (e, s1)) : s1.run = s.run := by
  obtain ⟨es, n, hs1⟩ := takeEvent_frame s
  simpa [he] using congrArg State.run hs1

/-- Settles O40: ticks and resets have a next state, and of the ways a host transaction can go the one that has none is
a `START_SAMPLING` to a launched sampler. -/
theorem onlySecondStartFaults : Obligations.OnlySecondStartFaults := by
  intro s
  rcases he : takeEvent s with ⟨e, s1⟩
  cases e with
  | tick l => exact .inl ⟨_, step_tick_next he⟩
  | reset => exact .inl ⟨_, step_reset he⟩
  | host w =>
    rw [step_host he]
    rcases exec_decodeHost_cases w s1 with ⟨d, hd, ⟨hr, h⟩ | ⟨-, h⟩⟩ | ⟨-, h | ⟨v, h⟩⟩
    · exact .inr ⟨h, (takeEvent_run he).symm.trans hr, w, s1, d, rfl, hd⟩
    · exact .inl ⟨_, h⟩
    · exact .inl ⟨_, h⟩
    · exact .inl ⟨_, h⟩

/-! ## The loop's own phases and the Decode Status -/

/-- A run is determined, so what is shown of its end separately holds of it together. -/
theorem reaches_and {k : Nat} {s : State} {P Q : State → Prop} (hP : reaches k s P) (hQ : reaches k s Q) :
    reaches k s (fun t => P t ∧ Q t) := by
  obtain ⟨t, ht, hPt⟩ := hP
  obtain ⟨u, hu, hQu⟩ := hQ
  cases ht.symm.trans hu
  exact ⟨t, ht, hPt, hQu⟩

/-- Settles O9: the tick of `IDLE` is the attempt start or nothing. -/
theorem idleWaitsForRun : Obligations.IdleWaitsForRun := fun s => exec_phaseInstr .idle s

/-- Settles O16: the pause is a counted phase of 4000000 ticks that keeps `LAST`, and its end starts the attempt. -/
theorem sleepPauses4000000Ticks : Obligations.SleepPauses4000000Ticks := by
  refine ⟨rfl, fun s => exec_phaseInstr .sleep s, fun s samples rest hp hd hlen he => ⟨fun k hk => ?_, ?_⟩⟩
  · have hcount : reaches k s (counted s k ((samples.drop k).map .tick ++ rest)) :=
      reaches_counted (p := .sleep) rfl hp he (hlen ▸ hk.le) (by simpa [hd] using hk)
    refine reaches_mono (reaches_and (reaches_delay rfl hp he hd hlen hk) hcount) ?_
    rintro t ⟨⟨hph, hdly⟩, ht⟩
    exact ⟨hph, hdly, by rw [ht]⟩
  · refine hlen ▸ reaches_mono (reaches_afterCount rfl hp he (by simp [hd, hlen]) (by omega)) ?_
    rintro _ ⟨l, rfl⟩
    exact ⟨rfl, rfl, rfl, rfl, rfl, rfl⟩

/-- Settles O18: the rows are the commit, the abort, the checksum failure and the bare status, each written out. -/
theorem statusRowsEndTheAttempt : Obligations.StatusRowsEndTheAttempt :=
  ⟨fun _ => rfl, fun _ => rfl, fun _ => rfl, fun _ => rfl⟩

/-! ## Host transactions -/

/-- Settles O7: a launch writes `RUN`, which was 0, and every other transaction writes at most the returned word. -/
theorem hostTransactionFrame : Obligations.HostTransactionFrame := by
  intro w s t ht
  rcases exec_decodeHost_cases w s with ⟨d, hd, ⟨-, h⟩ | ⟨-, h⟩⟩ | ⟨-, h | ⟨v, h⟩⟩ <;> rw [h] at ht <;> cases ht
  · exact ⟨rfl, fun _ => rfl, fun _ => ⟨rfl, d, hd⟩⟩
  · exact ⟨rfl, id, fun hne => absurd rfl hne⟩
  · exact ⟨rfl, id, fun hne => absurd rfl hne⟩

/-- A transaction that is no `START_SAMPLING` leaves a word in `hRdata`, if only the one that stood there. -/
theorem exec_decodeHost_of_not_start {w : BitVec 35} (hw : ∀ d, decodeHost w ≠ .startSampling d) (s : State) :
    ∃ v, exec (decodeHost w) s = .next (hostReturn v s) := by
  rcases exec_decodeHost_cases w s with ⟨d, hd, -⟩ | ⟨-, h | ⟨v, h⟩⟩
  · exact absurd hd (hw d)
  · exact ⟨s.hRdata, h⟩
  · exact ⟨v, h⟩

section
variable (v : Word) (s : State)

theorem sameSequencer_hostReturn : sameSequencer (hostReturn v s) s :=
  ⟨rfl, rfl, rfl, rfl, rfl, rfl, rfl, rfl, rfl, rfl, rfl, rfl⟩

theorem countTick_hostReturn (n : Nat) {leave : State → State}
    (hleave : leave (hostReturn v s) = hostReturn v (leave s)) :
    countTick n leave (hostReturn v s) = hostReturn v (countTick n leave s) := by
  rw [countTick, countTick, hostReturn_dly, hleave, apply_ite (hostReturn v)]
  rfl

theorem runWait_hostReturn (L : Level) (T : Nat) {onDone : Nat → State → State}
    (hdone : ∀ r, onDone r (hostReturn v s) = hostReturn v (onDone r s)) :
    runWait L T onDone (hostReturn v s) = hostReturn v (runWait L T onDone s) := by
  rw [runWait_eq, runWait_eq, hostReturn_pinIn, hostReturn_el, hdone, apply_ite (hostReturn v),
    apply_ite (hostReturn v)]
  rfl

theorem evaluate_hostReturn : evaluate (hostReturn v s) = hostReturn v (evaluate s) := by
  rw [evaluate, evaluate, hostReturn_raw, apply_ite (hostReturn v)]
  rfl

theorem receiveBit_hostReturn (r : Nat) : receiveBit r (hostReturn v s) = hostReturn v (receiveBit r s) := by
  by_cases h : s.bitIdx.toNat = 39
  · rw [receiveBit_last r h, receiveBit_last (s := hostReturn v s) r h]
    exact evaluate_hostReturn v { s with raw := shiftIn s.raw (thresholdBit r) }
  · rw [receiveBit_next r h, receiveBit_next (s := hostReturn v s) r h]
    rfl

/-- The sequencer carries the returned word along and does not look at it. -/
theorem tickPhase_hostReturn (p : Phase) : tickPhase p (hostReturn v s) = hostReturn v (tickPhase p s) := by
  cases p with
  | idle =>
    rw [tickPhase, tickPhase, hostReturn_run, apply_ite (hostReturn v)]
    rfl
  | wakeLow => exact countTick_hostReturn v s _ rfl
  | wakeHigh => exact countTick_hostReturn v s _ rfl
  | sleep => exact countTick_hostReturn v s _ rfl
  | ackLow => exact runWait_hostReturn v s _ _ fun _ => rfl
  | ackHigh => exact runWait_hostReturn v s _ _ fun _ => rfl
  | bitLow => exact runWait_hostReturn v s _ _ fun _ => rfl
  | bitHigh => exact runWait_hostReturn v s _ _ (receiveBit_hostReturn v s)

end

/-- Settles O49: the transaction leaves a returned word at most, and the tick carries it along. -/
theorem hostsDoNotDisturbTheSequencer : Obligations.HostsDoNotDisturbTheSequencer := by
  intro s w l rest hw
  let s' := withEvents s (.tick l :: rest)
  let u := beginTick l (withEvents s' rest)
  obtain ⟨v, hv⟩ := exec_decodeHost_of_not_start hw s'
  have hhost : step (withEvents s (.host w :: .tick l :: rest)) = .next (hostReturn v s') :=
    (step_host (takeEvent_cons _ _ _ rfl)).trans hv
  have htick : step (hostReturn v s') = .next (hostReturn v (tickPhase u.ph u)) :=
    (step_tick_next (takeEvent_cons _ _ _ rfl)).trans (congrArg _ (tickPhase_hostReturn v u u.ph))
  exact ⟨_, _, (run_succ_of_step hhost 1).trans (run_succ_of_step htick 0), run_succ_of_tick rfl 0,
    sameSequencer_hostReturn v _, rfl⟩

end Sys2Proof.Proofs
end

section
/-! The host transactions (45_host_ops.md): what each one answers (R190 to R196), and why the words the two getters
return change only at a commit (R195). -/

namespace Sys2Proof.Proofs

open Machine Laws

/-! ## `START_SAMPLING` -/

/-- The row launches a stopped sampler and faults at a launched one, whatever its ignored bits. -/
theorem exec_startSampling (d : BitVec 31) (s : State) :
    exec (.startSampling d) s = if s.run then .fault .secondStart else .next { s with run := true } := rfl

theorem exec_startSampling_of_stopped (d : BitVec 31) {s : State} (hr : s.run = false) :
    exec (.startSampling d) s = .next { s with run := true } :=
  (exec_startSampling d s).trans (if_neg (Bool.eq_false_iff.mp hr))

/-- The table's `START_SAMPLING` word with its ignored bits 0. -/
theorem decodeHost_startWord : decodeHost 0x400000001#35 = .startSampling 0 := by decide

/-- Settles O1: the row writes `RUN` alone, and the tick after it is the one of `IDLE` with `RUN` set, which starts the
attempt whatever it samples. -/
theorem startSamplingSetsRunOnly : Obligations.StartSamplingSetsRunOnly := by
  refine ⟨fun d s hr => exec_startSampling_of_stopped d hr, fun l => ?_⟩
  have hlaunch : step (withEvents State.reset [.host 0x400000001#35, .tick l]) =
      .next { withEvents State.reset [.tick l] with run := true } := by
    rw [step_host (takeEvent_cons _ _ _ rfl), decodeHost_startWord]
    exact exec_startSampling_of_stopped 0 rfl
  refine reaches_add (k := 1) (m := 1) (reaches_one_of_step hlaunch (reaches_one_of_tick rfl ?_))
  exact ⟨rfl, rfl, rfl, rfl, rfl⟩

/-- Settles O2: of the row's two branches a launched sampler takes the fault. -/
theorem secondStartSamplingFaults : Obligations.SecondStartSamplingFaults := fun d s hr =>
  (exec_startSampling d s).trans (if_pos hr)

/-! ## The reads -/

section
variable (d : BitVec 32) (s : State)

theorem exec_readCtrl : exec (.readCtrl d) s = .next (hostReturn 0 s) := by
  rw [← windowWord_ctrl s]; rfl

theorem exec_getStatus : exec (.getStatus d) s = .next (hostReturn (statusBits s.last s.run) s) := by
  rw [← windowWord_status]; rfl

theorem exec_getHumidity : exec (.getHumidity d) s = .next (hostReturn (humidityWord s) s) := by
  rw [humidityWord, ← windowWord_humidity]; rfl

theorem exec_getTemperature : exec (.getTemperature d) s = .next (hostReturn (temperatureWord s) s) := by
  rw [temperatureWord, ← windowWord_temperature]; rfl

end

/-- Settles O5: the read completes with the `STATUS` word, whose number is `statusBits_eq_ofNat`. -/
theorem getStatusReturnsStatusWord : Obligations.GetStatusReturnsStatusWord := by
  intro d s
  rw [exec_getStatus, statusBits_eq_ofNat, hostReturn]

/-- Settles O6: the ignored writes answer the state they were given, and word 0 of the window reads 0. -/
theorem otherTransactionsHaveNoEffect : Obligations.OtherTransactionsHaveNoEffect :=
  ⟨fun _ _ => rfl, fun _ _ => rfl, fun _ _ => rfl, fun _ _ => rfl, exec_readCtrl⟩

/-! ## The getters between commits -/

/-- Short of a reset, a step that is no tick with `ev_ok` keeps the Reading. -/
theorem sameReading_of_no_commit {s s1 t : State} {e : Event} (he : takeEvent s = (e, s1)) (hreset : e ≠ .reset)
    (hstep : step s = .next t) (hno : ¬ ((∃ l, e = .tick l) ∧ t.strobe = some .ok)) : sameReading s t := by
  have hcommit := (readingReplacedOnlyByCommit s s1 t e he hreset hstep).1
  by_contra hne
  refine hno (hcommit ?_)
  simpa only [sameReading, not_and_or] using hne

section
variable {s t : State} (h : sameReading s t)
include h

theorem humidityWord_of_sameReading : humidityWord t = humidityWord s := by
  obtain ⟨hhum, -, -⟩ := h
  rw [humidityWord, humidityWord, hhum]

theorem temperatureWord_of_sameReading : temperatureWord t = temperatureWord s := by
  obtain ⟨-, hsign, hmag⟩ := h
  rw [temperatureWord, temperatureWord, hsign, hmag]

/-- The two getters' words are words 2 and 3 of the window, and each is computed from the Reading alone. -/
theorem getterWords_of_sameReading : windowWord 2 t = windowWord 2 s ∧ windowWord 3 t = windowWord 3 s :=
  ⟨(windowWord_humidity t).trans ((humidityWord_of_sameReading h).trans (windowWord_humidity s).symm),
    (windowWord_temperature t).trans ((temperatureWord_of_sameReading h).trans (windowWord_temperature s).symm)⟩

end

theorem sameReading_of_tick {s s1 t : State} {l : Level} (he : takeEvent s = (.tick l, s1)) (hstep : step s = .next t)
    (hno : t.strobe ≠ some .ok) : sameReading s t :=
  sameReading_of_no_commit he nofun hstep fun h => hno h.2

theorem sameReading_of_host {s s1 t : State} {w : BitVec 35} (he : takeEvent s = (.host w, s1))
    (hstep : step s = .next t) : sameReading s t :=
  sameReading_of_no_commit he nofun hstep (by simp)

/-- The sequencer does not write the host port. -/
theorem tick_hRdata {s s1 t : State} {l : Level} (he : takeEvent s = (.tick l, s1)) (hstep : step s = .next t) :
    t.hRdata = s.hRdata := by
  obtain ⟨es, n, hs1⟩ := takeEvent_frame s
  obtain rfl : s1 = _ := by simpa [he] using hs1
  cases (step_tick_next he).symm.trans hstep
  obtain ⟨-, -, hdata, -⟩ := tickPhase_surroundings s.ph (beginTick l { s with env := es, draws := n })
  exact hdata

/-- Settles O43: a step that commits nothing keeps the Reading, from which both words are computed, and the sequencer
carries the returned word along. -/
theorem gettersChangeOnlyAtCommit : Obligations.GettersChangeOnlyAtCommit := by
  intro s s1 t e he hstep
  refine ⟨?tick, ?host⟩
  case tick =>
    rintro l rfl
    exact ⟨tick_hRdata he hstep, fun hno => getterWords_of_sameReading (sameReading_of_tick he hstep hno)⟩
  case host =>
    rintro w rfl
    exact getterWords_of_sameReading (sameReading_of_host he hstep)

/-- Settles O3: the read completes with word 3 of the window, the patterns are computed, and short of a commit the
Reading is kept. -/
theorem getTemperatureReturnsRendering : Obligations.GetTemperatureReturnsRendering :=
  ⟨exec_getTemperature, rfl, rfl, rfl,
    fun _ _ _ _ he hstep hno => temperatureWord_of_sameReading (sameReading_of_tick he hstep hno)⟩

/-- Settles O4: as for the temperature; the sign bit of a rendering is the sign it was given (R36). -/
theorem getHumidityReturnsRendering : Obligations.GetHumidityReturnsRendering :=
  ⟨exec_getHumidity, rfl, rfl, fun n hn => (renderingIsNearestBinary32 false n hn).1,
    fun _ _ _ _ he hstep hno => humidityWord_of_sameReading (sameReading_of_tick he hstep hno)⟩

end Sys2Proof.Proofs
end

section
/-! The events (60_exceptions.md R215, R218, 44_sampler.md R182): a tick either ends the attempt, with one event that
`LAST` records, or leaves the outputs low and `LAST` alone; and the tick that reports a timeout is the abort. -/

namespace Sys2Proof.Proofs

open Machine Laws

/-! ## A tick ends the attempt or emits nothing -/

/-- The attempt ended with an event that `LAST` records, and the pause begins (R182). -/
def attemptEnded (t : State) : Prop :=
  ∃ x, t.strobe = some x ∧ t.last = strobeStatus x ∧ t.ph = .sleep ∧ t.dly = 0

/-- The two states show the same event outputs and the same `LAST`. -/
def sameReport (s t : State) : Prop :=
  t.strobe = s.strobe ∧ t.last = s.last

theorem attemptEnded_endAttempt (x : Strobe) (s : State) : attemptEnded (endAttempt x s) :=
  ⟨x, rfl, rfl, rfl, rfl⟩

theorem attemptEnded_evaluate (s : State) : attemptEnded (evaluate s) := by
  rcases evaluate_cases s with ⟨-, h⟩ | ⟨-, h⟩ <;> rw [h]
  · exact attemptEnded_endAttempt .ok _
  · exact attemptEnded_endAttempt .checksum s

/-- From `s` to `t` a wait ended the attempt, or the report stands and no wait led into the pause. -/
def endsOrKeeps (s t : State) : Prop :=
  isWait s.ph = true ∧ attemptEnded t ∨ sameReport s t ∧ ¬ (isWait s.ph = true ∧ t.ph = .sleep)

/-- Bit 39 ends the attempt; after a bit before it the sequencer waits for the next one. -/
theorem endsOrKeeps_receiveBit {s : State} (hp : s.ph = .bitHigh) (r : Nat) : endsOrKeeps s (receiveBit r s) := by
  rcases receiveBit_cases r s with ⟨-, h⟩ | ⟨-, h⟩ <;> rw [h]
  · exact .inl ⟨by simp [hp, isWait], attemptEnded_evaluate _⟩
  · exact .inr ⟨⟨rfl, rfl⟩, by simp⟩

/-- Of the ways a tick can go, the abort of a wait and the evaluation after bit 39 end the attempt; no other one reports
anything or leads from a wait into the pause. -/
theorem endsOrKeeps_tickPhase (s : State) : endsOrKeeps s (tickPhase s.ph s) := by
  refine tickPhase_cases s.ph s ?idle ?counts ?_ ?_ ?_ ?waits ?aborts ?_ ?_ ?_ ?endsBitHigh <;> intro hp
  case idle => cases s.run <;> exact .inr ⟨⟨rfl, rfl⟩, by simp [hp, isWait]⟩
  case counts => exact .inr ⟨⟨rfl, rfl⟩, by rcases hp with hp | hp | hp <;> simp [hp, isWait]⟩
  case waits => exact .inr ⟨⟨rfl, rfl⟩, fun ⟨_, hph⟩ => by simp [show s.ph = .sleep from hph, isWait] at hp⟩
  case aborts => exact .inl ⟨hp, attemptEnded_endAttempt .timeout s⟩
  case endsBitHigh => exact endsOrKeeps_receiveBit hp _
  all_goals exact .inr ⟨⟨rfl, rfl⟩, by simp⟩

/-- Settles O46: host transactions write neither the outputs nor `LAST`, a reset lowers the outputs, and a tick, which
begins with them low, ends the attempt or keeps them. -/
theorem eventsMarkAttemptEnds : Obligations.EventsMarkAttemptEnds := by
  intro s s1 t e he hstep
  obtain ⟨⟨es, n, rfl⟩, hcases⟩ := step_next_cases he hstep
  rcases hcases with ⟨l, rfl, rfl⟩ | ⟨rfl, rfl⟩ | ⟨w, rfl, ⟨d, -, -, rfl⟩ | ⟨-, rfl | ⟨v, rfl⟩⟩⟩
  · refine ⟨nofun, nofun, fun _ _ => ?_⟩
    rcases endsOrKeeps_tickPhase (beginTick l { s with env := es, draws := n }) with
      ⟨hw, x, hstrobe, hlast, hph, hdly⟩ | ⟨⟨hlow, hlast⟩, hgoes⟩
    · refine ⟨iff_of_true (Option.isSome_of_eq_some hstrobe) ⟨hw, hph⟩, fun y hy => ?_, fun hnone => ?_⟩
      · obtain rfl : x = y := Option.some.inj (hstrobe.symm.trans hy)
        exact ⟨hlast, hdly⟩
      · cases hstrobe.symm.trans hnone
    · rw [beginTick_strobe] at hlow
      refine ⟨iff_of_false (Option.not_isSome_iff_eq_none.mpr hlow) hgoes, fun y hy => ?_, fun _ => hlast⟩
      cases hlow.symm.trans hy
  · exact ⟨nofun, fun _ => rfl, nofun⟩
  · exact ⟨fun _ _ => ⟨rfl, rfl⟩, nofun, nofun⟩
  · exact ⟨fun _ _ => ⟨rfl, rfl⟩, nofun, nofun⟩
  · exact ⟨fun _ _ => ⟨rfl, rfl⟩, nofun, nofun⟩

/-! ## The timeout -/

/-- Once the event of the tick before is low, the abort is the one way a tick can report a timeout. -/
theorem tickPhase_eq_abortTimeout {s : State} (hs : s.strobe = none) (p : Phase)
    (ht : (tickPhase p s).strobe = some .timeout) : tickPhase p s = abortTimeout s := by
  revert ht
  refine tickPhase_cases (P := fun t => t.strobe = some .timeout → t = abortTimeout s) p s
    ?idle ?_ ?_ ?_ ?_ ?_ ?aborts ?_ ?_ ?_ ?endsBitHigh <;> intro _ ht
  case idle => cases hr : s.run <;> simp [hr, hs] at ht
  case aborts => rfl
  case endsBitHigh => exact absurd ht (afterWait_strobe_ne_timeout hs .bitHigh _)
  all_goals simp [hs] at ht

/-- Settles O47: the abort of the begun tick, written out. -/
theorem timeoutKeepsEverythingElse : Obligations.TimeoutKeepsEverythingElse := by
  intro s s1 t l he hstep ht
  cases (step_tick_next he).symm.trans hstep
  exact tickPhase_eq_abortTimeout (beginTick_strobe l s1) s1.ph ht

end Sys2Proof.Proofs
end

section
/-! Resets and the hosts' duty (70_reset_and_hazards.md R240, R242, R245). -/

namespace Sys2Proof.Proofs

open Machine Laws

/-- Settles O35: the step of a reset answers `applyReset`, whatever the state. -/
theorem resetRestoresEveryElement : Obligations.ResetRestoresEveryElement := fun _ _ he =>
  ⟨_, step_reset he, rfl, rfl, rfl, rfl, rfl, rfl, rfl, rfl, rfl, rfl, rfl, rfl, rfl⟩

/-! ## What the duty says of one event -/

theorem hostWord_top (we : BitVec 1) (addr : BitVec 2) (d : BitVec 32) :
    (hostWord we addr d).extractLsb' 32 3 = we ++ addr :=
  BitVec.extractLsb'_append_eq_left

/-- The bits the duty looks at are those that make a word decode to `START_SAMPLING` (R82). -/
theorem startBits_iff (w : BitVec 35) :
    ((w.extractLsb' 32 3 == 0b100#3) && w.getLsbD 0) = true ↔ ∃ d, decodeHost w = .startSampling d := by
  obtain ⟨we, addr, data, rfl⟩ := exists_hostWord w
  have htop : ∀ (we : BitVec 1) (addr : BitVec 2),
      (we ++ addr == 0b100#3) = (we.getLsbD 0 && decide (addr = 0b00#2)) := by decide
  rw [hostWord_top, htop, decodeHost, hostWord_write, hostWord_addr]
  split_ifs <;> simp_all

section
variable (run : Bool) (rest : List Event) {w : BitVec 35}

theorem dutyKept_start (hw : ∃ d, decodeHost w = .startSampling d) :
    dutyKept run (.host w :: rest) = (!run && dutyKept true rest) := by
  rw [dutyKept, if_pos ((startBits_iff w).2 hw)]

theorem dutyKept_other (hw : ∀ d, decodeHost w ≠ .startSampling d) :
    dutyKept run (.host w :: rest) = dutyKept run rest := by
  rw [dutyKept, if_neg fun h => not_exists.2 hw ((startBits_iff w).1 h)]

end

/-! ## Events taken under the duty -/

/-- Under the duty a listed event is taken, and the duty holds of the ones after it. -/
theorem exists_step_of_dutyKept {s : State} {e : Event} {rest : List Event} (he : s.env = e :: rest)
    (hduty : dutyKept s.run (e :: rest) = true) :
    ∃ t, step s = .next t ∧ t.env = rest ∧ dutyKept t.run rest = true := by
  have htake := takeEvent_cons s e rest he
  cases e with
  | tick l =>
    obtain ⟨hrun, -, -, -, henv, -⟩ := tickPhase_surroundings s.ph (beginTick l { s with env := rest })
    refine ⟨_, step_tick_next htake, henv, ?_⟩
    rw [hrun]
    exact hduty
  | reset => exact ⟨_, step_reset htake, rfl, hduty⟩
  | host w =>
    rw [step_host htake]
    rcases exec_decodeHost_cases w { s with env := rest } with
      ⟨d, hd, ⟨hr, -⟩ | ⟨-, h⟩⟩ | ⟨hn, h | ⟨v, h⟩⟩
    · rw [dutyKept_start _ _ ⟨d, hd⟩, show s.run = true from hr] at hduty
      cases hduty
    · rw [dutyKept_start _ _ ⟨d, hd⟩, Bool.and_eq_true] at hduty
      exact ⟨_, h, rfl, hduty.2⟩
    · exact ⟨_, h, rfl, dutyKept_other s.run rest hn ▸ hduty⟩
    · exact ⟨_, h, rfl, dutyKept_other s.run rest hn ▸ hduty⟩

/-- Settles O41, by induction on the number of steps: each one takes an event and leaves the duty kept. -/
theorem hostDutyAvoidsFault : Obligations.HostDutyAvoidsFault := by
  intro s hduty k hk
  induction k generalizing s with
  | zero => exact ⟨s, rfl, trivial⟩
  | succ k ih =>
    obtain ⟨e, rest, he⟩ := List.exists_cons_of_length_pos (Nat.zero_lt_of_lt hk)
    obtain ⟨t, hstep, henv, hduty'⟩ := exists_step_of_dutyKept he (he ▸ hduty)
    have hlen : k ≤ t.env.length := by simpa [he, henv] using hk
    obtain ⟨u, hu, -⟩ := ih t (henv ▸ hduty') hlen
    exact ⟨u, (run_succ_of_step hstep k).trans hu, trivial⟩

end Sys2Proof.Proofs
end

section
/-! The numbers the decoder accepts in each code space (30_encoding.md sections 2, 3, 4 and 6). -/

namespace Sys2Proof.Proofs

open Machine Laws

/-- Settles O25: each word is the code of its instruction, which decodes to that instruction (`decode_encode`). -/
theorem sampleWordsDecode : Obligations.SampleWordsDecode :=
  ⟨decode_encode (.startSampling 0), decode_encode (.ctrlNop 0x7FFFFFFF#31),
    decode_encode (.writeIgnoredW2 0x42C80000#32), decode_encode (.getStatus 0), decode_encode (.getTemperature 0),
    decode_encode .bitHigh, decode_encode (.frame 400 1 257 0x13), decode_encode .lastTimeout,
    decode_encode (.statusWord .checksum true)⟩

/-! ## The three answers of the decoder -/

theorem decode_tooWide {f : Format} {n : Nat} (hn : 2 ^ formatWidth f ≤ n) : decode f n = .error .tooWide :=
  if_neg (Nat.not_lt.2 hn)

/-- Bits 31:3 of a word read 0 when its number is below 8. -/
theorem upperBits_eq_zero_iff (w : Word) : w.extractLsb' 3 29 = 0#29 ↔ w.toNat < 8 := by
  rw [← BitVec.toNat_inj, BitVec.extractLsb'_toNat, Nat.shiftRight_eq_div_pow, BitVec.toNat_ofNat]
  omega

theorem decodeStatusWord_of_lt {w : Word} (hw : w.toNat < 8) : ∃ i, decodeStatusWord w = .ok i := by
  rw [decodeStatusWord, if_pos ((upperBits_eq_zero_iff w).2 hw)]
  exact ⟨_, rfl⟩

theorem decodeStatusWord_of_ge {w : Word} (hw : 8 ≤ w.toNat) :
    decodeStatusWord w = .error .statusBitsNotZero := by
  rw [decodeStatusWord, if_neg fun h => Nat.not_lt.2 hw ((upperBits_eq_zero_iff w).1 h)]

/-- What the decoder answers to a number, said once: too wide, a `STATUS` word with a zero bit set, or an
instruction. -/
theorem decode_cases (f : Format) (n : Nat) :
    (2 ^ formatWidth f ≤ n ∧ decode f n = .error .tooWide) ∨
      ((f = .word32 ∧ 8 ≤ n ∧ n < 2 ^ formatWidth f) ∧ decode f n = .error .statusBitsNotZero) ∨
      ((n < 2 ^ formatWidth f ∧ (f = .word32 → n < 8)) ∧ ∃ i, decode f n = .ok i) := by
  rcases Nat.lt_or_ge n (2 ^ formatWidth f) with hn | hn
  · obtain ⟨w, rfl⟩ : ∃ w : BitVec (formatWidth f), w.toNat = n := ⟨.ofNatLT n hn, BitVec.toNat_ofNatLT n hn⟩
    right
    cases f with
    | host35 => exact .inr ⟨⟨hn, nofun⟩, _, decode_host35_toNat w⟩
    | phase3 => exact .inr ⟨⟨hn, nofun⟩, _, decode_phase3_toNat w⟩
    | frame40 => exact .inr ⟨⟨hn, nofun⟩, _, decode_frame40_toNat w⟩
    | last2 => exact .inr ⟨⟨hn, nofun⟩, _, if_pos hn⟩
    | word32 =>
      have hdecode := decode_word32_toNat w
      rcases Nat.lt_or_ge w.toNat 8 with h8 | h8
      · obtain ⟨i, hi⟩ := decodeStatusWord_of_lt h8
        exact .inr ⟨⟨hn, fun _ => h8⟩, i, hdecode.trans hi⟩
      · exact .inl ⟨⟨rfl, h8, hn⟩, hdecode.trans (decodeStatusWord_of_ge h8)⟩
  · exact .inl ⟨hn, decode_tooWide hn⟩

/-- Settles O29: the conditions of the three answers exclude one another. -/
theorem decodeRefusesOnlyOutsideTheSpace : Obligations.DecodeRefusesOnlyOutsideTheSpace := by
  intro f n
  rcases decode_cases f n with ⟨hn, h⟩ | ⟨⟨rfl, h8, hn⟩, h⟩ | ⟨⟨hn, h8⟩, i, h⟩ <;> rw [h]
  · refine ⟨iff_of_true rfl hn, iff_of_false nofun ?_, iff_of_false nofun fun hin => Nat.not_lt.2 hn hin.1⟩
    rintro ⟨rfl, -, hlt⟩
    exact Nat.not_lt.2 hn hlt
  · exact ⟨iff_of_false nofun (Nat.not_le.2 hn), iff_of_true rfl ⟨rfl, h8, hn⟩,
      iff_of_false nofun fun hin => Nat.not_lt.2 h8 (hin.2 rfl)⟩
  · exact ⟨iff_of_false nofun (Nat.not_le.2 hn), iff_of_false nofun fun hbits => Nat.not_lt.2 hbits.2.1 (h8 hbits.1),
      iff_of_true ⟨i, rfl⟩ ⟨hn, h8⟩⟩

end Sys2Proof.Proofs
end

section
/-! How long an attempt can take (70_reset_and_hazards.md R258): a bound on the ticks to go that every tick of a
launched sampler lowers, unless it ends the attempt. -/

namespace Sys2Proof.Proofs

open Machine Laws

/-! ## The bound on the ticks to go -/

/-- How many more ticks the phase can last before the one that leaves it. -/
def ticksInPhase (s : State) : Nat :=
  match countedTicks s.ph, waitOperands s.ph with
  | some n, _ => n - 1 - s.dly.toNat
  | none, some (_, T) => T - s.el.toNat
  | none, none => 0

/-- How many ticks the attempt can last after the phase, which leaves the given number of bits to receive after the
present one. A bit takes at most 56 and 75 ticks. -/
def ticksAfterPhase (bitsLeft : Nat) : Phase → Nat
  | .idle => 8436
  | .wakeLow => 5436
  | .wakeHigh => 5411
  | .ackLow => 5325
  | .ackHigh => 5240
  | .bitLow => 75 + 131 * bitsLeft
  | .bitHigh => 131 * bitsLeft
  | .sleep => 8436

/-- How many ticks can pass before the one that ends the attempt in progress or, in the pause, the next one. -/
def ticksToGo (s : State) : Nat := ticksInPhase s + ticksAfterPhase (39 - s.bitIdx.toNat) s.ph

section
variable {s : State} {n : Nat} {L : Level} {T : Nat}

theorem ticksInPhase_counted (hc : countedTicks s.ph = some n) : ticksInPhase s = n - 1 - s.dly.toNat := by
  rw [ticksInPhase, hc]

theorem ticksInPhase_wait (ho : waitOperands s.ph = some (L, T)) : ticksInPhase s = T - s.el.toNat := by
  have hc : countedTicks s.ph = none := by cases hp : s.ph <;> rw [hp] at ho <;> cases ho <;> rfl
  rw [ticksInPhase, hc, ho]

theorem ticksInPhase_idle (hp : s.ph = .idle) : ticksInPhase s = 0 := by
  rw [ticksInPhase, hp]
  rfl

/-- Outside the pause at most 8436 ticks pass before the one that ends the attempt. -/
theorem ticksToGo_le (hp : s.ph ≠ .sleep) : ticksToGo s ≤ 8436 := by
  rw [ticksToGo]
  cases hph : s.ph with
  | idle => rw [ticksInPhase_idle hph, ticksAfterPhase]
  | wakeLow => rw [ticksInPhase_counted (n := 3000) (hph ▸ rfl), ticksAfterPhase]; omega
  | wakeHigh => rw [ticksInPhase_counted (n := 25) (hph ▸ rfl), ticksAfterPhase]; omega
  | ackLow => rw [ticksInPhase_wait (L := .low) (T := 85) (hph ▸ rfl), ticksAfterPhase]; omega
  | ackHigh => rw [ticksInPhase_wait (L := .high) (T := 85) (hph ▸ rfl), ticksAfterPhase]; omega
  | bitLow => rw [ticksInPhase_wait (L := .low) (T := 56) (hph ▸ rfl), ticksAfterPhase]; omega
  | bitHigh => rw [ticksInPhase_wait (L := .high) (T := 75) (hph ▸ rfl), ticksAfterPhase]; omega
  | sleep => exact absurd hph hp

theorem ticksToGo_sleep_le (hp : s.ph = .sleep) : ticksToGo s ≤ 4008435 := by
  rw [ticksToGo, ticksInPhase_counted (n := 4000000) (hp ▸ rfl), hp, ticksAfterPhase]
  omega

/-! ## What follows a phase -/

theorem ticksToGo_enterWait {p : Phase} (ho : waitOperands p = some (L, T)) (s : State) :
    ticksToGo (enterWait p s) = T - 1 + ticksAfterPhase (39 - s.bitIdx.toNat) p := by
  rw [ticksToGo, ticksInPhase_wait (s := enterWait p s) ho]
  rfl

/-- A counted phase leaves to the next one what `ticksAfterPhase` allows. -/
theorem ticksToGo_afterCount_lt {p : Phase} (hc : countedTicks p = some n) (s : State) :
    ticksToGo (afterCount p s) < ticksAfterPhase (39 - s.bitIdx.toNat) p := by
  rw [ticksToGo]
  rcases countedTicks_cases hc with ⟨rfl, -⟩ | ⟨rfl, -⟩ | ⟨rfl, -⟩ <;> rw [afterCount]
  · rw [ticksInPhase_counted (s := enterWakeHigh s) (n := 25) rfl]
    simp [ticksAfterPhase]
  · rw [ticksInPhase_wait (s := releaseLine s) (L := .low) (T := 85) rfl]
    simp [ticksAfterPhase]
  · rw [ticksInPhase_counted (s := startAttempt s) (n := 3000) rfl]
    simp [ticksAfterPhase]

/-- A received bit is the last one and ends the attempt, or leaves one bit less to receive. -/
theorem receiveBit_endsOrAdvances (hidx : s.bitIdx.toNat ≤ 39) (r : Nat) :
    attemptEnded (receiveBit r s) ∨
      ticksToGo (receiveBit r s) < ticksAfterPhase (39 - s.bitIdx.toNat) .bitHigh := by
  rcases receiveBit_cases r s with ⟨-, h⟩ | ⟨hne, h⟩ <;> rw [h]
  · exact .inl (attemptEnded_evaluate _)
  · have hnext : (s.bitIdx + 1).toNat = s.bitIdx.toNat + 1 := BitVec.toNat_add_of_lt (by simp; omega)
    right
    rw [ticksToGo_enterWait (p := .bitLow) rfl, hnext, ticksAfterPhase, ticksAfterPhase]
    omega

/-- A wait that ends with a count ends the attempt, or leaves to the next phase what `ticksAfterPhase` allows. -/
theorem afterWait_endsOrAdvances {p : Phase} (ho : waitOperands p = some (L, T)) (hidx : s.bitIdx.toNat ≤ 39)
    (r : Nat) :
    attemptEnded (afterWait p r s) ∨
      ticksToGo (afterWait p r s) < ticksAfterPhase (39 - s.bitIdx.toNat) p := by
  cases p with
  | ackLow =>
    right
    rw [afterWait, ticksToGo_enterWait (p := .ackHigh) rfl, ticksAfterPhase, ticksAfterPhase]
    omega
  | ackHigh =>
    right
    rw [afterWait, ticksToGo_enterWait (p := .bitLow) rfl, ticksAfterPhase, ticksAfterPhase]
    omega
  | bitLow =>
    right
    rw [afterWait, ticksToGo_enterWait (p := .bitHigh) rfl, ticksAfterPhase, ticksAfterPhase]
    omega
  | bitHigh => exact receiveBit_endsOrAdvances hidx r
  | _ => cases ho

end

/-! ## One tick -/

/-- A phase waits for the launch, or counts ticks, or waits for the line. -/
theorem phase_cases (p : Phase) :
    p = .idle ∨ (∃ n, countedTicks p = some n) ∨ (∃ L T, waitOperands p = some (L, T)) := by
  cases p <;> simp [countedTicks, waitOperands]

theorem countedTicks_le {p : Phase} {n : Nat} (hc : countedTicks p = some n) : n ≤ 4000000 := by
  rcases countedTicks_cases hc with ⟨-, rfl⟩ | ⟨-, rfl⟩ | ⟨-, rfl⟩ <;> decide

/-- From `s` to `t` the attempt ended, or fewer ticks are to go. -/
def endsOrAdvances (s t : State) : Prop :=
  attemptEnded t ∨ ticksToGo t < ticksToGo s

/-- What leaves the phase need only meet what `ticksToGo` allows for the phases after it. -/
theorem endsOrAdvances_of_leaves {s t : State}
    (h : attemptEnded t ∨ ticksToGo t < ticksAfterPhase (39 - s.bitIdx.toNat) s.ph) : endsOrAdvances s t :=
  h.imp_right fun hlt => hlt.trans_le (Nat.le_add_left _ _)

section
variable {s : State} {n : Nat} {L : Level} {T : Nat} (l : Level) (h : Inv s)
include h

theorem endsOrAdvances_countTick (hc : countedTicks s.ph = some n) :
    endsOrAdvances s (countTick n (afterCount s.ph) (beginTick l s)) := by
  rcases countTick_cases n (afterCount s.ph) (beginTick l s) with ⟨-, ht⟩ | ⟨hne, ht⟩ <;> rw [ht]
  · exact endsOrAdvances_of_leaves (.inr (ticksToGo_afterCount_lt hc (beginTick l s)))
  · rw [beginTick_dly] at hne ⊢
    have hlt : s.dly.toNat < n := inv_dly_lt h hc
    have hn : n ≤ 4000000 := countedTicks_le hc
    have hnext : (s.dly + 1).toNat = s.dly.toNat + 1 := BitVec.toNat_add_of_lt (by simp; omega)
    refine .inr (Nat.add_lt_add_right ?_ _)
    rw [ticksInPhase_counted hc, ticksInPhase_counted (s := { beginTick l s with dly := s.dly + 1 }) hc, hnext]
    omega

theorem endsOrAdvances_runWait (ho : waitOperands s.ph = some (L, T)) :
    endsOrAdvances s (runWait L T (afterWait s.ph) (beginTick l s)) := by
  rcases runWait_cases L T (afterWait s.ph) (beginTick l s) with ⟨-, ht⟩ | ⟨-, -, ht⟩ | ⟨-, hle, ht⟩ <;> rw [ht]
  · exact endsOrAdvances_of_leaves (afterWait_endsOrAdvances (s := beginTick l s) ho h.bitIndexBound _)
  · exact .inl (attemptEnded_endAttempt .timeout _)
  · rw [beginTick_el] at hle ⊢
    have hT : T ≤ 85 := (isWait_of_waitOperands ho).2
    have hnext : (s.el + 1).toNat = s.el.toNat + 1 := BitVec.toNat_add_of_lt (by simp; omega)
    refine .inr (Nat.add_lt_add_right ?_ _)
    rw [ticksInPhase_wait ho, ticksInPhase_wait (s := { beginTick l s with el := s.el + 1 }) ho, hnext]
    omega

/-- A tick of a launched sampler ends the attempt or leaves fewer ticks to go, whatever the line does. -/
theorem endsOrAdvances_tickPhase (hr : s.run = true) : endsOrAdvances s (tickPhase s.ph (beginTick l s)) := by
  rcases phase_cases s.ph with hp | ⟨n, hc⟩ | ⟨L, T, ho⟩
  · rw [hp, tickPhase, beginTick_run, if_pos hr]
    refine endsOrAdvances_of_leaves (.inr ?_)
    rw [ticksToGo, ticksInPhase_counted (s := startAttempt (beginTick l s)) (n := 3000) rfl, hp]
    simp [ticksAfterPhase]
  · rw [tickPhase_of_countedTicks hc]
    exact endsOrAdvances_countTick l h hc
  · rw [tickPhase_of_waitOperands ho]
    exact endsOrAdvances_runWait l h ho

end

/-! ## The end of the attempt -/

/-- More samples than there are ticks to go bring the attempt to its end. -/
theorem exists_reaches_strobe {s : State} {samples : List Level} {rest : List Event} (h : Inv s) (hr : s.run = true)
    (hgo : ticksToGo s < samples.length) (he : s.env = samples.map .tick ++ rest) :
    ∃ k, 1 ≤ k ∧ k ≤ samples.length ∧ reaches k s (fun t => t.strobe.isSome = true) := by
  induction samples generalizing s with
  | nil => cases hgo
  | cons l samples ih =>
    let s' := withEvents s (samples.map .tick ++ rest)
    have h' : Inv s' := inv_surroundings h _ s.draws
    have hstep := step_tick_next (takeEvent_cons s _ _ he)
    rcases endsOrAdvances_tickPhase l h' hr with ⟨x, hx, -⟩ | hlt
    · exact ⟨1, le_rfl, Nat.le_add_left 1 _, reaches_one_of_step hstep (Option.isSome_of_eq_some hx)⟩
    · obtain ⟨-, -, -, -, henv, -⟩ := tickPhase_surroundings s.ph (beginTick l s')
      obtain ⟨k, -, hk, t, ht, hstrobe⟩ := ih (inv_tickPhase l h') ((tickPhase_run s.ph l s').trans hr)
        (Nat.lt_of_lt_of_le hlt (Nat.le_of_lt_succ hgo)) henv
      exact ⟨k + 1, Nat.le_add_left 1 k, Nat.succ_le_succ hk, t, (run_succ_of_step hstep k).trans ht, hstrobe⟩

/-- Settles O52: outside the pause at most 8436 ticks pass before the one that ends the attempt. -/
theorem everyAttemptEndsInTime : Obligations.EveryAttemptEndsInTime := by
  intro s samples rest h hr hp hlen he
  have hgo : ticksToGo s < samples.length := (Nat.lt_succ_of_le (ticksToGo_le hp)).trans_eq hlen.symm
  exact hlen ▸ exists_reaches_strobe h hr hgo he

/-- Settles O53: in the pause at most 4008435 ticks pass before the one that ends the next attempt. -/
theorem nextAttemptEndsInTime : Obligations.NextAttemptEndsInTime := by
  intro s samples rest h hp hlen he
  have hr : s.run = true := h.launched (by simp [hp])
  have hgo : ticksToGo s < samples.length := (Nat.lt_succ_of_le (ticksToGo_sleep_le hp)).trans_eq hlen.symm
  exact hlen ▸ exists_reaches_strobe h hr hgo he

end Sys2Proof.Proofs
end

section
/-! A whole frame (70_reset_and_hazards.md R255): the handshake, the 40 bits one by one, and the evaluation that
bit 39 starts. -/

namespace Sys2Proof.Proofs

open Machine Laws

/-! ## The samples of a frame, bit by bit -/

/-- The samples of a bit whose low wait has had its first one: the rest of the low segment, the high segment and the
low sample that ends it. -/
def bitSamples (p : Nat × Nat) : List Level :=
  List.replicate (p.1 - 1) Level.low ++ List.replicate p.2 Level.high ++ [Level.low]

/-- The low sample that ends a bit is the first one of the next bit's low segment. -/
theorem segments_eq_bitSamples {segs : List (Nat × Nat)} (hlow : ∀ p ∈ segs, 1 ≤ p.1) :
    segs.flatMap (fun p => List.replicate p.1 Level.low ++ List.replicate p.2 Level.high) ++ [Level.low] =
      Level.low :: segs.flatMap bitSamples := by
  induction segs with
  | nil => rfl
  | cons p segs ih =>
    obtain ⟨a, ha⟩ := Nat.exists_eq_add_of_le' (hlow p List.mem_cons_self)
    rw [List.flatMap_cons, List.append_assoc, ih fun q hq => hlow q (List.mem_cons_of_mem p hq)]
    simp [bitSamples, ha, List.replicate_succ]

/-- A frame is the low and the high segment of the acknowledgement, the low sample that ends it, and the bits. -/
theorem frameWave_eq {al ah : Nat} {segs : List (Nat × Nat)} (hlow : ∀ p ∈ segs, 1 ≤ p.1) :
    frameWave al ah segs =
      List.replicate al Level.low ++ (List.replicate ah Level.high ++ Level.low :: segs.flatMap bitSamples) := by
  rw [frameWave, List.append_assoc, segments_eq_bitSamples hlow, List.append_assoc]

/-! ## A frame in progress -/

/-- The bits in order of arrival, each from the length of its high segment (R143). -/
def frameOf (segs : List (Nat × Nat)) : BitVec 40 := packBits (segs.map fun p => decide (40 < p.2))

theorem frameOf_concat (segs : List (Nat × Nat)) (p : Nat × Nat) :
    frameOf (segs ++ [p]) = shiftIn (frameOf segs) (thresholdBit p.2) := by
  rw [frameOf, List.map_append]
  exact List.foldl_concat ..

/-- In the attempt that found the Reading of `s` the wait `p` has counted `e`, the bits of these segments are in, and
these events are to come. -/
structure InWait (s : State) (p : Phase) (e : BitVec 8) (segs : List (Nat × Nat)) (rest : List Event) (t : State) :
    Prop where
  ph : t.ph = p
  el : t.el = e
  bitIdx : t.bitIdx.toNat = segs.length
  raw : t.raw = frameOf segs
  reading : sameReading s t
  env : t.env = rest

/-- What the segments of a bit are held to (R141, R142). -/
def inBounds (p : Nat × Nat) : Prop := 1 ≤ p.1 ∧ p.1 ≤ 56 ∧ 1 ≤ p.2 ∧ p.2 ≤ 75

section
variable {s t : State} {segs : List (Nat × Nat)} {rest : List Event}

/-! ## The handshake -/

/-- The two drive phases last 3025 ticks, whatever the samples, and the first wait starts with nothing received. -/
theorem reaches_ackLow {before : List Level} (hph : s.ph = .wakeLow) (hdly : s.dly = 0) (hraw : s.raw = 0)
    (hidx : s.bitIdx = 0) (hlen : before.length = 3025) (he : s.env = before.map .tick ++ rest) :
    reaches 3025 s (InWait s .ackLow 0 [] rest) := by
  obtain ⟨low, high, rfl, hlow, hhigh⟩ : ∃ low high, before = low ++ high ∧ low.length = 3000 ∧ high.length = 25 :=
    ⟨before.take 3000, before.drop 3000, (List.take_append_drop ..).symm, by simp [hlen], by simp [hlen]⟩
  rw [List.map_append, List.append_assoc] at he
  rw [← hlen, List.length_append]
  refine reaches_add (reaches_mono
    (reaches_afterCount (p := .wakeLow) rfl hph he (by simp [hdly, hlow]) (by omega)) ?_)
  rintro _ ⟨l, rfl⟩
  refine reaches_mono
    (reaches_afterCount (p := .wakeHigh) rfl rfl rfl (by simp [afterCount, hhigh]) (by omega)) ?_
  rintro _ ⟨l', rfl⟩
  exact ⟨rfl, rfl, congrArg BitVec.toNat hidx, hraw, ⟨rfl, rfl, rfl⟩, rfl⟩

/-- A wait within its bound that keeps no count leads to the next one, of which the sample that ended it is the
first. -/
theorem InWait.next {p q : Phase} {e : BitVec 8} {L l : Level} {T n : Nat}
    (h : InWait s p e segs (List.replicate n (Event.tick L) ++ Event.tick l :: rest) t)
    (ho : waitOperands p = some (L, T)) (hq : afterWait p = fun _ => enterWait q) (hT : e.toNat + n ≤ T) (hl : l ≠ L) :
    reaches (n + 1) t (InWait s q 1 segs rest) := by
  obtain ⟨hph, rfl, hidx, hraw, hreading, henv⟩ := h
  refine reaches_mono (reaches_afterWait ho hph hT hl henv) ?_
  rintro _ rfl
  rw [hq]
  exact ⟨rfl, rfl, hidx, hraw, hreading, rfl⟩

/-- The acknowledgement and the low sample that ends it lead to the low wait of the first bit. -/
theorem InWait.acknowledged {al ah : Nat}
    (h : InWait s .ackLow 0 segs
      ((List.replicate al Level.low ++ (List.replicate ah Level.high ++ [Level.low])).map .tick ++ rest) t)
    (hal : al ≤ 85) (hah : 1 ≤ ah) (hah' : ah ≤ 85) :
    reaches (al + ah + 1) t (InWait s .bitLow 1 segs rest) := by
  obtain ⟨n, rfl⟩ := Nat.exists_eq_add_of_le' hah
  have h' : InWait s .ackLow 0 segs (List.replicate al (Event.tick .low) ++
      Event.tick .high :: (List.replicate n (Event.tick .high) ++ Event.tick .low :: rest)) t := by
    simpa [List.replicate_succ] using h
  rw [show al + (n + 1) + 1 = (al + 1) + (n + 1) by omega]
  have hhigh : reaches (al + 1) t (InWait s .ackHigh 1 segs _) := h'.next rfl rfl (by simpa using hal) (by decide)
  refine reaches_add (reaches_mono hhigh fun u hu => ?_)
  exact hu.next rfl rfl (by simp; omega) (by decide)

/-! ## The bits -/

variable {p : Nat × Nat}

/-- A bit before the last one adds its segments to those received. -/
theorem InWait.bit (h : InWait s .bitLow 1 segs ((bitSamples p).map .tick ++ rest) t) (hp : inBounds p)
    (hlen : segs.length < 39) : reaches (p.1 + p.2) t (InWait s .bitLow 1 (segs ++ [p]) rest) := by
  obtain ⟨hlo, hlo', hhi, hhi'⟩ := hp
  obtain ⟨hph, hel, hidx, hraw, hreading, henv⟩ := h
  have hnext : (t.bitIdx + 1).toNat = (segs ++ [p]).length := by
    rw [List.length_append, ← hidx]
    exact BitVec.toNat_add_of_lt (by simp; omega)
  refine reaches_mono
    (bitSegmentsShiftOneBit t p.1 p.2 rest hph hel (hidx ▸ hlen) hlo hlo' hhi hhi' henv) ?_
  rintro u rfl
  exact ⟨hph, hel, hnext, by rw [frameOf_concat, ← hraw]; rfl, hreading, rfl⟩

/-- The bits before the last one are received one by one. -/
theorem InWait.bits {more : List (Nat × Nat)}
    (h : InWait s .bitLow 1 segs ((more.flatMap bitSamples).map .tick ++ rest) t) (hmore : ∀ p ∈ more, inBounds p)
    (hlen : segs.length + more.length ≤ 39) :
    reaches (more.map fun p => p.1 + p.2).sum t (InWait s .bitLow 1 (segs ++ more) rest) := by
  induction more generalizing segs t with
  | nil => exact ⟨t, rfl, by simpa using h⟩
  | cons p more ih =>
    rw [List.flatMap_cons, List.map_append, List.append_assoc] at h
    rw [List.length_cons] at hlen
    rw [List.map_cons, List.sum_cons]
    refine reaches_add (reaches_mono (h.bit (hmore p List.mem_cons_self) (by omega)) fun u hu => ?_)
    rw [List.append_cons]
    exact ih hu (fun q hq => hmore q (List.mem_cons_of_mem p hq)) (by simp; omega)

/-- The last bit completes the frame, which is evaluated (R145, R160). -/
theorem InWait.lastBit (h : InWait s .bitLow 1 segs ((bitSamples p).map .tick ++ rest) t) (hp : inBounds p)
    (hlen : segs.length = 39) :
    reaches (p.1 + p.2) t (fun u => ∃ v : State, u = evaluate { v with raw := frameOf (segs ++ [p]) } ∧
      v.bitIdx = 39 ∧ sameReading s v ∧ v.env = rest) := by
  obtain ⟨lo, hi⟩ := p
  obtain ⟨hlo, hlo', hhi, hhi'⟩ := hp
  obtain ⟨a, rfl⟩ := Nat.exists_eq_add_of_le' hlo
  obtain ⟨b, rfl⟩ := Nat.exists_eq_add_of_le' hhi
  rw [bitSamples, Nat.add_sub_cancel, bitEvents_eq] at h
  refine reaches_add (reaches_mono (h.next (q := .bitHigh) rfl rfl (by simp; omega) (by decide)) ?_)
  rintro u ⟨hph, hel, hidx, hraw, hreading, henv⟩
  refine reaches_mono (reaches_afterWait (p := .bitHigh) rfl hph (by simp [hel]; omega) (by decide) henv) ?_
  rintro _ rfl
  have h39 : (beginTick .low (waited b rest u)).bitIdx.toNat = 39 := hidx.trans hlen
  refine ⟨_, ?_, BitVec.eq_of_toNat_eq h39, hreading, rfl⟩
  rw [frameOf_concat, ← hraw, hel, Nat.add_comm b 1]
  exact receiveBit_last _ h39

end

/-! ## The end of the attempt -/

/-- How the attempt that found the Reading of `s` ends with a completed frame (R164, R165). -/
def endsWithFrame (s : State) (raw : BitVec 40) (rest : List Event) (t : State) : Prop :=
  t.ph = .sleep ∧ t.dly = 0 ∧ t.raw = raw ∧ t.bitIdx = 39 ∧ t.env = rest ∧
    (frameValid raw = true →
      t.last = .ok ∧ t.strobe = some .ok ∧ t.humRaw = humField raw ∧ t.tmpSign = signField raw ∧
        t.tmpMag = magField raw) ∧
    (frameValid raw = false → t.last = .checksum ∧ t.strobe = some .checksum ∧ sameReading s t)

theorem endsWithFrame_evaluate {s v : State} (raw : BitVec 40) (hidx : v.bitIdx = 39) (h : sameReading s v) :
    endsWithFrame s raw v.env (evaluate { v with raw := raw }) := by
  rcases evaluate_cases { v with raw := raw } with ⟨hv, ht⟩ | ⟨hv, ht⟩ <;> rw [ht]
  · exact ⟨rfl, rfl, rfl, hidx, rfl, fun _ => ⟨rfl, rfl, rfl, rfl, rfl⟩,
      fun hv' => absurd (hv.symm.trans hv') nofun⟩
  · exact ⟨rfl, rfl, rfl, hidx, rfl, fun hv' => absurd (hv.symm.trans hv') nofun, fun _ => ⟨rfl, rfl, h⟩⟩

/-- Settles O51: the drive, the acknowledgement, 39 bits that each hand over to the next, and the last one, whose tick
evaluates the frame. -/
theorem wholeFrameIsDecoded : Obligations.WholeFrameIsDecoded := by
  intro s before al ah segs rest hph hdly hraw hidx hbefore hal hah hah' hlen hsegs he
  obtain ⟨init, p, rfl⟩ : ∃ init p, segs = init ++ [p] :=
    ⟨segs.dropLast, segs.getLast (by rintro rfl; cases hlen), (List.dropLast_concat_getLast _).symm⟩
  have hinit : init.length = 39 := by simpa using hlen
  have hlow : ∀ q ∈ init ++ [p], 1 ≤ q.1 := fun q hq => (hsegs q hq).1
  have hticks : 3026 + frameTicks al ah (init ++ [p]) =
      3025 + ((al + ah + 1) + ((init.map fun q => q.1 + q.2).sum + (p.1 + p.2))) := by
    simp [frameTicks]; omega
  have he' : s.env = before.map .tick ++
      ((List.replicate al Level.low ++ (List.replicate ah Level.high ++ [Level.low])).map .tick ++
        ((init.flatMap bitSamples).map .tick ++ ((bitSamples p).map .tick ++ rest))) := by
    simpa [frameWave_eq hlow] using he
  intro raw
  rw [hticks]
  refine reaches_add (reaches_mono (reaches_ackLow hph hdly hraw hidx hbefore he') fun t ht => ?_)
  refine reaches_add (reaches_mono (ht.acknowledged hal hah hah') fun u hu => ?_)
  refine reaches_add (reaches_mono
    (hu.bits (fun q hq => hsegs q (List.mem_append_left _ hq)) (by simp [hinit])) fun v hv => ?_)
  refine reaches_mono (hv.lastBit (hsegs p (by simp)) hinit) ?_
  rintro _ ⟨w, rfl, hw, hreading, rfl⟩
  exact endsWithFrame_evaluate raw hw hreading

end Sys2Proof.Proofs
end
